-- ==== Sys2Proof/Word.lean ====
section
/-!
DEFINITION. The widths of the spec (R10, R63) and the one input transaction of the core, an event.
-/

namespace Sys2Proof

/-- `u8` (R10). -/
abbrev Byte := BitVec 8

/-- `u16` (R10): timestamps, register numbers, register values, remapped channels. -/
abbrev U16 := BitVec 16

/-- The event word `W` (R63). -/
abbrev EventWord := BitVec 32

/-- The width of `cnt`, `tx_len` and of the event field `N`: 9 bits (R23, R26, R63). -/
abbrev Count := BitVec 9

/-- One event (R63): the event word and its operand byte string `P`, empty where the operation takes none. -/
structure Event where
  word    : EventWord
  operand : List Byte
  deriving DecidableEq, Repr

end Sys2Proof
end

