-- ==== Sys2Proof/Config.lean ====
section
/-!
DEFINITION. The implementation parameters of R8, their constraints (R8, R9), and the configuration of the machine.
Every operation of the model takes a `Config` as an argument; `Config.chip` is the one `exec` and `step` run with.
-/

namespace Sys2Proof

/-- The three link-statistics kinds the encoder builds (R114). -/
inductive Kind where
  | ls  -- combined link statistics
  | up  -- uplink only
  | dn  -- downlink only
  deriving DecidableEq, Repr

/-- The parameters of R8, all of them, as plain numbers, before the constraints are checked. -/
structure Params where
  cap     : Nat   -- CAP
  addrIn  : Byte  -- ADDR_IN
  addrOut : Byte  -- ADDR_OUT
  tChan   : Byte  -- T_CHAN
  tLs     : Byte  -- T_LS
  tUp     : Byte  -- T_UP
  tDn     : Byte  -- T_DN
  psLs    : Nat   -- PSIZE_LS
  psUp    : Nat   -- PSIZE_UP
  psDn    : Nat   -- PSIZE_DN
  tmoUs   : Nat   -- TMO_US
  crcPoly : Byte  -- CRC_POLY, the x^8 term implicit
  crcSeed : Byte  -- CRC_SEED
  tsBits  : Nat   -- TS_BITS
  nCh     : Nat   -- N_CH
  chBits  : Nat   -- CH_BITS
  chOff   : Nat   -- CH_OFF
  chBytes : Nat   -- CH_BYTES, which R8 makes N_CH * CH_BITS / 8
  deriving DecidableEq, Repr

/-- `PSIZE(kind)` (R114). -/
def Params.psize (p : Params) : Kind → Nat
  | .ls => p.psLs
  | .up => p.psUp
  | .dn => p.psDn

/-- `TYPE(kind)` (R114). -/
def Params.typeByte (p : Params) : Kind → Byte
  | .ls => p.tLs
  | .up => p.tUp
  | .dn => p.tDn

/-- The ranges of R8 and the constraints of R9. R8 gives TS_BITS, N_CH, CH_BITS and CH_OFF no range (log entry 16). -/
abbrev Params.Ok (p : Params) : Prop :=
  (128 ≤ p.cap ∧ p.cap ≤ 256)
  ∧ (1 ≤ p.psLs ∧ p.psLs + 4 ≤ p.cap)
  ∧ (1 ≤ p.psUp ∧ p.psUp + 4 ≤ p.cap)
  ∧ (1 ≤ p.psDn ∧ p.psDn + 4 ≤ p.cap)
  ∧ p.chBytes = p.nCh * p.chBits / 8
  ∧ p.chOff + p.chBytes ≤ p.cap
  ∧ p.tmoUs < 2 ^ 16
  ∧ p.tmoUs < 2 ^ p.tsBits

/-- A configuration: parameters that meet the constraints. One that breaks a constraint cannot be built (R9). -/
structure Config extends Params where
  ok : toParams.Ok

/-- R9: a configuration that breaks a constraint is refused (`none`). -/
def Params.accept (p : Params) : Option Config :=
  if h : p.Ok then some { toParams := p, ok := h } else none

/-- OPEN (D6): the peer address ADDR_IN. No statement can know its value (log entry 6). -/
opaque Config.peerAddress : Byte
/-- OPEN (D8): the channel-data frame type T_CHAN (log entry 6). -/
opaque Config.chanType : Byte
/-- OPEN (D8): the combined link-statistics frame type T_LS (log entry 6). -/
opaque Config.lsType : Byte
/-- OPEN (D8): the uplink-only statistics frame type T_UP (log entry 6). -/
opaque Config.upType : Byte
/-- OPEN (D8): the downlink-only statistics frame type T_DN (log entry 6). -/
opaque Config.dnType : Byte

/-- A byte read at an index of CAP or more, which no buffer has (R24, R25). A free value: no statement can know it. Only
states that R35 and R36 rule out read one (log entry 9). -/
opaque Config.absentByte : Nat → Byte

/-- The configuration of `exec` and `step`: the defaults of R8, ADDR_OUT = ADDR_IN (D7), and the OPEN bytes
as constants without a value. DESIGN CHOICE: log entries 7 and 8. -/
def Config.chip : Config where
  cap     := 128
  addrIn  := Config.peerAddress
  addrOut := Config.peerAddress
  tChan   := Config.chanType
  tLs     := Config.lsType
  tUp     := Config.upType
  tDn     := Config.dnType
  psLs    := 10
  psUp    := 6
  psDn    := 5
  tmoUs   := 500
  crcPoly := 0xD5
  crcSeed := 0x00
  tsBits  := 16
  nCh     := 16
  chBits  := 11
  chOff   := 3
  chBytes := 22
  ok      := by decide

end Sys2Proof
end

