-- ==== Sys2Proof/Machine/State.lean ====
section
/-!
DEFINITION. The state of the core (R20 to R30), the response record of an event (R66), the reset state (R38), and the
reasons a step can stop.
-/

namespace Sys2Proof.Machine

/-- `st` (R22). Codes 6 and 7 are never written by any rule and have no constructor (R73, log entry 12). -/
inductive FsmState where
  | idle
  | receivingLength
  | receivingPayload
  | receivingCrc
  | transmitPending
  | transmitting
  deriving DecidableEq, Repr

/-- `dec` (R66): the source's TransmitDecision. -/
inductive Decision where
  | noTransmission  -- NONE
  | start           -- START
  deriving DecidableEq, Repr

/-- `value` (R66): the result of an event that returns one. -/
inductive Value where
  | flag (b : Bool)                     -- QPEND, CLASSIFY
  | crc (v : Byte)                      -- CRC8
  | register (v : U16)                  -- RDREG
  | frame (f : List Byte)               -- BUILD_*
  | channels (ch : List U16)            -- REMAP: N_CH values
  deriving DecidableEq, Repr

/-- The response record of one event (R66), each field at its default. -/
@[ext] structure Response where
  dec   : Decision := .noTransmission
  burst : List Byte := []
  chan  : Option (List U16) := none  -- N_CH values where present
  ack   : Bool := false
  value : Option Value := none
  diag  : Byte := 0
  deriving DecidableEq, Repr

/-- A buffer (R40): (index, byte) pairs, indices strictly rising, no entry equal to what an unlisted index reads as. -/
abbrev Memory := List Host.Cell

/-- The core's registers and buffers (R22 to R30), then two fields of the model: the events the environment has yet to
deliver (R48, log entry 1) and the response records so far (R66, R174, log entry 2). -/
@[ext]
structure State where
  st        : FsmState       -- R22
  cnt       : Count          -- R23
  rxb       : Memory         -- RXB, R24
  txb       : Memory         -- TXB, R25
  txLen     : Count          -- tx_len, R26
  lastT     : U16            -- last_t, R27
  txEn      : Bool           -- tx_en, R28
  frameRx   : Bool           -- frame_rx, R29
  crcOk     : Bool           -- crc_ok, R30
  events    : List Event     -- model's own: first element next
  responses : List Response  -- model's own: in the order of the events
  deriving DecidableEq, Repr

/-- The state after reset or power-on (R38, R161): no event is waiting and none has been answered. -/
def State.reset : State where
  st        := .idle
  cnt       := 0
  rxb       := []
  txb       := []
  txLen     := 0
  lastT     := 0
  txEn      := false
  frameRx   := false
  crcOk     := false
  events    := []
  responses := []

/-- Why the machine stops with a fault: never. "A model gives the core no fault outcome" (R140). -/
inductive Fault where
  deriving DecidableEq, Repr

/-- Why the machine refuses an instruction. -/
inductive Refusal where
  /-- Raised by `exec` for an instruction without a meaning. No arm of `exec` raises it. Safe. -/
  | notModelled (mnemonic : String)
  deriving DecidableEq, Repr

end Sys2Proof.Machine
end

