-- ==== Sys2Proof/Machine/Flags.lean ====
section
/-!
DEFINITION. The diagnostic bits (R141) and the STATUS view (R32).
-/

namespace Sys2Proof.Machine

/-- R141 bit 0. -/
def diagAddrDiscard : Byte := 0x01
/-- R141 bit 1. -/
def diagTimeoutAbort : Byte := 0x02
/-- R141 bit 2. -/
def diagLenReject : Byte := 0x04
/-- R141 bit 3. -/
def diagCrcMismatch : Byte := 0x08
/-- R141 bit 4. -/
def diagEnqDropped : Byte := 0x10
/-- R141 bit 5. -/
def diagByteIgnoredTx : Byte := 0x20
/-- R141 bit 6. -/
def diagSpuriousTxdone : Byte := 0x40
/-- R141 bit 7. -/
def diagReservedEvent : Byte := 0x80

/-- `tx_pending` (R31): derived, not stored. -/
def State.txPending (s : State) : Bool := s.txLen != 0

/-- The code of a protocol state (R22). -/
def FsmState.code : FsmState → BitVec 3
  | .idle             => 0
  | .receivingLength  => 1
  | .receivingPayload => 2
  | .receivingCrc     => 3
  | .transmitPending  => 4
  | .transmitting     => 5

/-- STATUS (R32): bits [15:7] are hardwired 0. -/
def State.status (s : State) : U16 :=
  0#9 ++ BitVec.ofBool s.txPending ++ BitVec.ofBool s.crcOk ++ BitVec.ofBool s.frameRx
    ++ BitVec.ofBool s.txEn ++ s.st.code

end Sys2Proof.Machine
end

