-- ==== Sys2Proof/Machine/Ops.lean ====
section
/-!
DEFINITION. The shared operations: buffers byte by byte (R40, R43), register updates, the work in progress of one event
(R11), and the effect of a reserved event (R67). The core has no exception to take and none to return from (R143).
-/

namespace Sys2Proof.Machine

/-! ### Buffers -/

/-- What an index that no write has listed reads as: the reset contents (R38, R47). -/
def Memory.blank : Byte := 0x00

/-- Byte `a` of a buffer. -/
def Memory.read : Memory → Nat → Byte
  | [], _ => Memory.blank
  | (k, v) :: m, a => if k = a then v else Memory.read m a

/-- Drop the entry of `a`. -/
def Memory.erase (m : Memory) (a : Nat) : Memory := m.filter fun cell => cell.1 != a

/-- Put an entry for `a` at its place in the order. -/
def Memory.insert : Memory → Nat → Byte → Memory
  | [], a, v => [(a, v)]
  | (k, x) :: m, a, v => if a < k then (a, v) :: (k, x) :: m else (k, x) :: Memory.insert m a v

/-- Write byte `a`; the value an unlisted index reads as removes the entry, so equal buffers are equal lists. -/
def Memory.write (m : Memory) (a : Nat) (v : Byte) : Memory :=
  if v = Memory.blank then m.erase a else (m.erase a).insert a v

/-- `n` bytes from index `a`, in index order (R41). -/
def Memory.readRange (m : Memory) (a : Nat) : Nat → List Byte
  | 0 => []
  | n + 1 => m.read a :: Memory.readRange m (a + 1) n

/-- `MemWrite(m, a, |f|, f)` (R11). -/
def Memory.writeRange (m : Memory) (a : Nat) : List Byte → Memory
  | [] => m
  | b :: f => Memory.writeRange (m.write a b) (a + 1) f

/-- `m[a] <- v` in a buffer of `cap` bytes. An index of `cap` or more is no byte of the buffer, and the write changes
none (R24, log entry 9). -/
def Memory.store (cap : Nat) (m : Memory) (a : Nat) (v : Byte) : Memory :=
  if a < cap then m.write a v else m

/-- `MemRead(m, a, n)` (R11) in a buffer of `cap` bytes; a byte it does not have is a free value (log entry 9). -/
def Memory.load (cap : Nat) (m : Memory) (a : Nat) : Nat → List Byte
  | 0 => []
  | n + 1 => (if a < cap then m.read a else Config.absentByte a) :: Memory.load cap m (a + 1) n

/-- The canonical form of a buffer. -/
def Memory.wf (m : Memory) : Bool :=
  decide (m.Pairwise (fun x y => x.1 < y.1) ∧ ∀ x ∈ m, x.2 ≠ Memory.blank)

/-- Every listed index is an index of a buffer of `cap` bytes. -/
def Memory.within (m : Memory) (cap : Nat) : Bool := m.all fun x => decide (x.1 < cap)

/-! ### Register updates -/

def State.setSt (v : FsmState) (s : State) : State := { s with st := v }
def State.setCnt (v : Count) (s : State) : State := { s with cnt := v }
def State.setRxb (v : Memory) (s : State) : State := { s with rxb := v }
def State.setTxb (v : Memory) (s : State) : State := { s with txb := v }
def State.setTxLen (v : Count) (s : State) : State := { s with txLen := v }
def State.setLastT (v : U16) (s : State) : State := { s with lastT := v }
def State.setTxEn (v : Bool) (s : State) : State := { s with txEn := v }
def State.setFrameRx (v : Bool) (s : State) : State := { s with frameRx := v }
def State.setCrcOk (v : Bool) (s : State) : State := { s with crcOk := v }
def State.setEvents (v : List Event) (s : State) : State := { s with events := v }

/-- The event's response joins the record (R66, R174). -/
def State.respond (r : Response) (s : State) : State := { s with responses := s.responses ++ [r] }

/-- `L`, the length byte of the frame in RXB (R56). -/
def State.rxL (s : State) : Nat := (s.rxb.read 1).toNat

/-- `RXB[cnt] <- b; cnt <- cnt + 1` (R83 to R86). -/
def State.pushRxb (c : Config) (b : Byte) (s : State) : State :=
  (s.setRxb (s.rxb.store c.cap s.cnt.toNat b)).setCnt (s.cnt + 1)

/-! ### One event in progress (R11) -/

/-- The registers as the event's statements have left them so far, and the response it is filling in. -/
structure Work where
  s : State
  r : Response
  deriving DecidableEq, Repr

/-- An event begins with the default record (R66). -/
def Work.begin (s : State) : Work := { s := s, r := {} }

/-- Statements that write registers. -/
def Work.upd (f : State → State) (w : Work) : Work := { w with s := f w.s }

/-- `diag |= FLAG` (R11). -/
def Work.flag (d : Byte) (w : Work) : Work := { w with r := { w.r with diag := w.r.diag ||| d } }

/-- `emit_channels(c)` (R11). -/
def Work.emitChannels (ch : List U16) (w : Work) : Work :=
  { w with r := { w.r with chan := some ch } }

/-- `emit_burst(f)` and `emit_decision(START)` (R11, R90). -/
def Work.emitStart (f : List Byte) (w : Work) : Work :=
  { w with r := { w.r with dec := .start, burst := f } }

/-- The end of an event, which always comes (R140): its response joins the record. -/
def Work.finish (w : Work) : State := w.s.respond w.r

/-- `MemRead(RXB, a, n)` (R11). -/
def readRxb (c : Config) (s : State) (a n : Nat) : List Byte := s.rxb.load c.cap a n

/-- `MemRead(TXB, a, n)` (R11). -/
def readTxb (c : Config) (s : State) (a n : Nat) : List Byte := s.txb.load c.cap a n

/-! ### Reserved events -/

/-- R67: a reserved event changes no state; its response is the default record with `RESERVED_EVENT`. -/
def reservedEvent (s : State) : State := s.respond { diag := diagReservedEvent }

end Sys2Proof.Machine
end

