-- ==== Sys2Proof/Syntax.lean ====
section
/-!
DEFINITION. The 14 events of the opcode map (R65), one constructor per row of spec/opcode_table.json.
-/

namespace Sys2Proof

/-- The operations of R65. The field `N` of CRC8 and CLASSIFY is the length of the operand string (R64, R74),
so the constructors carry the string alone. -/
inductive Instr where
  | rxByte (b : Byte) (t : U16)   -- R80
  | txDone                        -- R94
  | enqLs (p : List Byte)         -- R131
  | enqUp (p : List Byte)         -- R132
  | enqDn (p : List Byte)         -- R133
  | qpend                         -- R95
  | rdreg (r : U16)               -- R96
  | crc8 (p : List Byte)          -- R112
  | buildLs (p : List Byte)       -- R115
  | buildUp (p : List Byte)       -- R116
  | buildDn (p : List Byte)       -- R117
  | classify (p : List Byte)      -- R119
  | remap (p : List Byte)         -- R120
  | reset                         -- R160
  deriving DecidableEq, Repr

end Sys2Proof
end

