-- ==== Sys2Proof/WellFormed.lean ====
section
/-!
DEFINITION. Well-formed instructions: the operand string has the length its operation requires (R64).
-/

namespace Sys2Proof

/-- R64, operation by operation. -/
def Instr.wellFormed (c : Config) : Instr → Bool
  | .rxByte _ _ => true
  | .txDone     => true
  | .enqLs p    => p.length == c.psLs
  | .enqUp p    => p.length == c.psUp
  | .enqDn p    => p.length == c.psDn
  | .qpend      => true
  | .rdreg _    => true
  | .crc8 p     => decide (p.length ≤ c.cap)
  | .buildLs p  => p.length == c.psLs
  | .buildUp p  => p.length == c.psUp
  | .buildDn p  => p.length == c.psDn
  | .classify p => decide (3 ≤ p.length) && decide (p.length ≤ c.cap)
  | .remap p    => p.length == c.chBytes
  | .reset      => true

end Sys2Proof
end

