-- ==== Sys2Proof/Machine/Operands.lean ====
section
/-!
DEFINITION. The operand form that carries a byte string `P` (R64), and the fields a wire frame gives the core (R55 to R59).
-/

namespace Sys2Proof.Machine

/-- R64, R67: an event whose operand string does not have the length its operation requires is a reserved event;
otherwise the operation runs. `step` gets no such instruction from the decoder; `exec` may be asked (log entry 11). -/
def withOperand (ok : Bool) (s : State) (run : State → State) : State :=
  if ok then run s else reservedEvent s

/-- R59: an inbound length byte is legal. -/
def legalLength (c : Config) (b : Byte) : Bool := decide (2 ≤ b.toNat) && decide (b.toNat ≤ c.cap - 2)

/-- The type byte of a frame, offset 2 (R57). -/
def frameType (f : List Byte) : Option Byte := f[2]?

end Sys2Proof.Machine
end

