-- ==== Sys2Proof/Machine/Codec.lean ====
section
/-!
DEFINITION. The Frame Codec (41_frame_codec.md): the pure functions CRC8, BUILD_f, CLASSIFY_f, UNPACK, MAP and REMAP_f,
and the events that expose them. No event here changes a register or a buffer (R124).
-/

namespace Sys2Proof.Machine

/-! ### CRC-8 (R110) -/

/-- One bit of R110's inner loop, most significant bit first. -/
def crcShift (c : Config) (x : Byte) : Byte :=
  if x.msb then (x <<< 1) ^^^ c.crcPoly else x <<< 1

/-- `n` rounds of the inner loop. -/
def crcShifts (c : Config) : Nat → Byte → Byte
  | 0, x => x
  | n + 1, x => crcShifts c n (crcShift c x)

/-- R110's loop over the bytes, from a running value. -/
def crcFrom (c : Config) : Byte → List Byte → Byte
  | x, [] => x
  | x, b :: p => crcFrom c (crcShifts c 8 (x ^^^ b)) p

/-- `CRC8(s)` (R110). -/
def crc8 (c : Config) (p : List Byte) : Byte := crcFrom c c.crcSeed p

/-! ### Frame building (R114) -/

/-- `BUILD_f(kind, p)` (R114), for `p` of `PSIZE(kind)` bytes. -/
def buildFrame (c : Config) (k : Kind) (p : List Byte) : List Byte :=
  c.addrOut :: BitVec.ofNat 8 (c.psize k + 2) :: c.typeByte k :: p ++ [crc8 c (c.typeByte k :: p)]

/-! ### Classification (R118) -/

/-- `CLASSIFY_f(f)` = ChannelData: the type byte, offset 2, is T_CHAN. No other byte is read. -/
def isChannelData (c : Config) (f : List Byte) : Bool := frameType f == some c.tChan

/-! ### Channel remap (R120 to R123) -/

/-- The little-endian integer of a byte string (R121). -/
def littleEndian : List Byte → Nat
  | [] => 0
  | b :: p => b.toNat + 256 * littleEndian p

/-- `UNPACK(p)[k]` = V[11k+10 : 11k] (R121), with CH_BITS for 11. -/
def unpackChannel (c : Config) (p : List Byte) (k : Nat) : Nat :=
  littleEndian p / 2 ^ (c.chBits * k) % 2 ^ c.chBits

/-- `MAP(v)` (R122, R123): exact, the division truncates toward zero, and the result wraps modulo 2^16. -/
def mapChannel (v : Nat) : U16 :=
  BitVec.ofInt 16 (((v : Int) - 992) * 2047 |>.tdiv 1638 |> (· + 1024))

/-- `REMAP_f(p)` (R120): N_CH values. -/
def remapChannels (c : Config) (p : List Byte) : List U16 :=
  (List.range c.nCh).map fun k => mapChannel (unpackChannel c p k)

/-! ### The events -/

/-- An event that only returns a value: `emit_value(v)` (R124). -/
def returnValue (v : Value) (s : State) : State := s.respond { value := some v }

/-- CRC8 (R112). -/
def crc8Event (c : Config) (p : List Byte) (s : State) : State :=
  withOperand (decide (p.length ≤ c.cap)) s (returnValue (.crc (crc8 c p)))

/-- BUILD_LS, BUILD_UP, BUILD_DN (R115, R116, R117). -/
def buildEvent (c : Config) (k : Kind) (p : List Byte) (s : State) : State :=
  withOperand (p.length == c.psize k) s (returnValue (.frame (buildFrame c k p)))

/-- CLASSIFY (R119). -/
def classifyEvent (c : Config) (p : List Byte) (s : State) : State :=
  withOperand (decide (3 ≤ p.length) && decide (p.length ≤ c.cap)) s
    (returnValue (.flag (isChannelData c p)))

/-- REMAP (R120). -/
def remapEvent (c : Config) (p : List Byte) (s : State) : State :=
  withOperand (p.length == c.chBytes) s (returnValue (.channels (remapChannels c p)))

/-- CRC8 on the chip (R112). -/
def execCrc8 (p : List Byte) (s : State) : Host.Outcome State Fault Refusal := .next (crc8Event Config.chip p s)
/-- BUILD_LS on the chip (R115). -/
def execBuildLs (p : List Byte) (s : State) : Host.Outcome State Fault Refusal :=
  .next (buildEvent Config.chip .ls p s)
/-- BUILD_UP on the chip (R116). -/
def execBuildUp (p : List Byte) (s : State) : Host.Outcome State Fault Refusal :=
  .next (buildEvent Config.chip .up p s)
/-- BUILD_DN on the chip (R117). -/
def execBuildDn (p : List Byte) (s : State) : Host.Outcome State Fault Refusal :=
  .next (buildEvent Config.chip .dn p s)
/-- CLASSIFY on the chip (R119). -/
def execClassify (p : List Byte) (s : State) : Host.Outcome State Fault Refusal :=
  .next (classifyEvent Config.chip p s)
/-- REMAP on the chip (R120). -/
def execRemap (p : List Byte) (s : State) : Host.Outcome State Fault Refusal :=
  .next (remapEvent Config.chip p s)

end Sys2Proof.Machine
end

