-- ==== Sys2Proof/Machine/Enqueue.lean ====
section
/-!
DEFINITION. Telemetry enqueue (42_telemetry_enqueue.md): ENQ_LS, ENQ_UP, ENQ_DN, each an atomic check-then-write (R50).
-/

namespace Sys2Proof.Machine

/-- `ENQ(kind, P)` (R130). -/
def enqueue (c : Config) (k : Kind) (p : List Byte) (s : State) : State :=
  if s.txLen ≠ 0 then
    s.respond { ack := false, diag := diagEnqDropped }
  else
    let f := buildFrame c k p
    ((s.setTxb (s.txb.writeRange 0 f)).setTxLen (BitVec.ofNat 9 f.length)).respond { ack := true }

/-- ENQ_* with the operand check of R64. -/
def enqEvent (c : Config) (k : Kind) (p : List Byte) (s : State) : State :=
  withOperand (p.length == c.psize k) s (enqueue c k p)

/-- ENQ_LS on the chip (R131). -/
def execEnqLs (p : List Byte) (s : State) : Host.Outcome State Fault Refusal :=
  .next (enqEvent Config.chip .ls p s)
/-- ENQ_UP on the chip (R132). -/
def execEnqUp (p : List Byte) (s : State) : Host.Outcome State Fault Refusal :=
  .next (enqEvent Config.chip .up p s)
/-- ENQ_DN on the chip (R133). -/
def execEnqDn (p : List Byte) (s : State) : Host.Outcome State Fault Refusal :=
  .next (enqEvent Config.chip .dn p s)

end Sys2Proof.Machine
end

