-- ==== Sys2Proof/Machine/Observe.lean ====
section
/-!
DEFINITION. The observation events QPEND (R95) and RDREG (R96). Neither changes a register or a buffer (R45).
-/

namespace Sys2Proof.Machine

/-- QPEND (R95). -/
def qpend (s : State) : State := returnValue (.flag s.txPending) s

/-- The register map (R33); none for a reserved number. -/
def regRead (c : Config) (r : U16) (s : State) : Option U16 :=
  let n := r.toNat
  if n = 0x0000 then some s.status
  else if n = 0x0001 then some (s.cnt.setWidth 16)
  else if n = 0x0002 then some (s.txLen.setWidth 16)
  else if n = 0x0003 then some s.lastT
  else if 0x0100 ≤ n ∧ n ≤ 0x01FF ∧ n - 0x0100 < c.cap then some ((s.rxb.read (n - 0x0100)).setWidth 16)
  else if 0x0200 ≤ n ∧ n ≤ 0x02FF ∧ n - 0x0200 < c.cap then some ((s.txb.read (n - 0x0200)).setWidth 16)
  else none

/-- RDREG (R96): a reserved number returns 0x0000 with `RESERVED_EVENT`. -/
def rdreg (c : Config) (r : U16) (s : State) : State :=
  match regRead c r s with
  | some v => returnValue (.register v) s
  | none => s.respond { value := some (.register 0), diag := diagReservedEvent }

/-- QPEND (R95). -/
def execQpend (s : State) : Host.Outcome State Fault Refusal := .next (qpend s)

/-- RDREG on the chip (R96). -/
def execRdreg (r : U16) (s : State) : Host.Outcome State Fault Refusal := .next (rdreg Config.chip r s)

end Sys2Proof.Machine
end

