-- ==== Sys2Proof/Machine/Receive.lean ====
section
/-!
DEFINITION. The frame state machine (40_frame_state_machine.md): RX_BYTE in its four steps, and TX_DONE.
-/

namespace Sys2Proof.Machine

/-! ### RX_BYTE (R80) -/

/-- R81: the elapsed time, `wrap16(t - last_t)`, within the TS_BITS of a timestamp (R8, log entry 16). -/
def elapsed (c : Config) (t : U16) (s : State) : Nat := (t - s.lastT).toNat % 2 ^ c.tsBits

/-- R81: the inactivity timeout fires. The comparison is strict; there is no check in IDLE. -/
def timedOut (c : Config) (t : U16) (s : State) : Bool :=
  decide (s.st ≠ .idle) && decide (c.tmoUs < elapsed c t s)

/-- Step 1 (R81). -/
def rxTimeout (c : Config) (t : U16) (w : Work) : Work :=
  if timedOut c t w.s then (w.upd (State.setSt .idle)).flag diagTimeoutAbort else w

/-- Step 2 (R82). -/
def rxTimestamp (t : U16) (w : Work) : Work := w.upd (State.setLastT t)

/-- R83: a new frame begins, `RXB[0] = b`, `cnt = 1`. -/
def startFrame (c : Config) (b : Byte) (s : State) : State :=
  ((((s.setCnt 0).pushRxb c b).setFrameRx false).setCrcOk false).setSt .receivingLength

/-- Step 3 in IDLE (R83). -/
def rxIdle (c : Config) (b : Byte) (w : Work) : Work :=
  if b = c.addrIn then w.upd (startFrame c b) else w.flag diagAddrDiscard

/-- R84: the check of the length byte, after its store. -/
def checkLength (c : Config) (b : Byte) (w : Work) : Work :=
  if legalLength c b then w.upd (State.setSt .receivingPayload)
  else (w.upd (State.setSt .idle)).flag diagLenReject

/-- Step 3 in RECEIVING_LENGTH (R84). -/
def rxLength (c : Config) (b : Byte) (w : Work) : Work := checkLength c b (w.upd (State.pushRxb c b))

/-- R85: the frame's type and payload are all stored. -/
def checkPayload (w : Work) : Work :=
  if w.s.rxL + 1 ≤ w.s.cnt.toNat then w.upd (State.setSt .receivingCrc) else w

/-- Step 3 in RECEIVING_PAYLOAD (R85). -/
def rxPayload (c : Config) (b : Byte) (w : Work) : Work := checkPayload (w.upd (State.pushRxb c b))

/-- R86: `crc_ok` and `CRC_MISMATCH`, from the received CRC byte and the bytes it covers. -/
def checkCrc (c : Config) (b : Byte) (covered : List Byte) (w : Work) : Work :=
  let ok := b == crc8 c covered
  let w := w.upd (State.setCrcOk ok)
  if ok then w else w.flag diagCrcMismatch

/-- R87: the channels of a channel-data frame. -/
def deliver (c : Config) (frame region : List Byte) (w : Work) : Work :=
  if isChannelData c frame then w.emitChannels (remapChannels c region) else w

/-- R86: the CRC byte is stored and the frame marked received. -/
def storeCrcByte (c : Config) (b : Byte) (s : State) : State := (s.pushRxb c b).setFrameRx true

/-- Step 3 in RECEIVING_CRC (R86, R87). The CRC covers the `L - 1` bytes from offset 2 (R58); the channels come from
the CH_BYTES from CH_OFF. -/
def rxCrc (c : Config) (b : Byte) (w : Work) : Work :=
  let s := storeCrcByte c b w.s
  let w := checkCrc c b (readRxb c s 2 (s.rxL - 1)) { w with s := s }
  (deliver c (readRxb c s 0 s.cnt.toNat) (readRxb c s c.chOff c.chBytes) w).upd (State.setSt .transmitPending)

/-- Step 3 in TRANSMITTING and TRANSMIT_PENDING (R88, R89). -/
def rxIgnored (w : Work) : Work := w.flag diagByteIgnoredTx

/-- Step 3 (R83 to R89), by the protocol state. -/
def rxStep3 (c : Config) (b : Byte) (w : Work) : Work :=
  match w.s.st with
  | .idle             => rxIdle c b w
  | .receivingLength  => rxLength c b w
  | .receivingPayload => rxPayload c b w
  | .receivingCrc     => rxCrc c b w
  | .transmitPending  => rxIgnored w
  | .transmitting     => rxIgnored w

/-- R90: the line turns round; the whole queued frame goes to the transport. -/
def startTransmission (burst : List Byte) (w : Work) : Work :=
  (w.upd fun s => ((s.setTxEn true).setTxLen 0).setSt .transmitting).emitStart burst

/-- Step 4 (R90, R91, R92). -/
def turnaround (c : Config) (w : Work) : Work :=
  if w.s.st = .transmitPending then
    if w.s.txLen ≠ 0 then startTransmission (readTxb c w.s 0 w.s.txLen.toNat) w
    else w.upd (State.setSt .idle)
  else w

/-- RX_BYTE (R80): the four steps, in order. -/
def rxByte (c : Config) (b : Byte) (t : U16) (s : State) : State :=
  (turnaround c (rxStep3 c b (rxTimestamp t (rxTimeout c t (Work.begin s))))).finish

/-- RX_BYTE on the chip (R80). -/
def execRxByte (b : Byte) (t : U16) (s : State) : Host.Outcome State Fault Refusal :=
  .next (rxByte Config.chip b t s)

/-! ### TX_DONE (R94) -/

/-- TX_DONE (R94): it acts in every state, and reports one outside TRANSMITTING. -/
def txDone (s : State) : State :=
  ((s.setTxEn false).setSt .idle).respond
    { diag := if s.st = .transmitting then 0 else diagSpuriousTxdone }

/-- TX_DONE (R94). -/
def execTxDone (s : State) : Host.Outcome State Fault Refusal := .next (txDone s)

end Sys2Proof.Machine
end

