-- ==== Sys2Proof/Machine/Reset.lean ====
section
/-!
DEFINITION. RESET (R160): every piece of core state at its reset value (R38).
-/

namespace Sys2Proof.Machine

/-- R160. The waiting events and the record of responses are not core state and stay; the response is the default. -/
def resetCore (s : State) : State :=
  ({ State.reset with events := s.events, responses := s.responses } : State).respond {}

/-- RESET (R160). -/
def execReset (s : State) : Host.Outcome State Fault Refusal := .next (resetCore s)

end Sys2Proof.Machine
end

