-- ==== Sys2Proof/Machine/Dispatch.lean ====
section
/-!
DEFINITION. One arm per constructor of Instr.
-/

namespace Sys2Proof.Machine

def exec (i : Instr) (s : State) : Host.Outcome State Fault Refusal :=
  match i with
  | .rxByte b t => Sys2Proof.Machine.execRxByte b t s
  | .txDone => Sys2Proof.Machine.execTxDone s
  | .enqLs p => Sys2Proof.Machine.execEnqLs p s
  | .enqUp p => Sys2Proof.Machine.execEnqUp p s
  | .enqDn p => Sys2Proof.Machine.execEnqDn p s
  | .qpend => Sys2Proof.Machine.execQpend s
  | .rdreg r => Sys2Proof.Machine.execRdreg r s
  | .crc8 p => Sys2Proof.Machine.execCrc8 p s
  | .buildLs p => Sys2Proof.Machine.execBuildLs p s
  | .buildUp p => Sys2Proof.Machine.execBuildUp p s
  | .buildDn p => Sys2Proof.Machine.execBuildDn p s
  | .classify p => Sys2Proof.Machine.execClassify p s
  | .remap p => Sys2Proof.Machine.execRemap p s
  | .reset => Sys2Proof.Machine.execReset s

end Sys2Proof.Machine
end

