-- ==== Sys2Proof/Decode.lean ====
section
/-!
DEFINITION. Decoding an event (R67, R68), total on every word and operand string, rejecting by name; and the encoder,
written from the same fields (R63, R65).
-/

namespace Sys2Proof

/-- The rows of the opcode map (R65). -/
inductive Row where
  | rxByte | txDone | enqLs | enqUp | enqDn | qpend | rdreg | crc8
  | buildLs | buildUp | buildDn | classify | remap | reset
  deriving DecidableEq, Repr

/-- Why an event is reserved (R67). -/
inductive Reserved where
  /-- `OP` is none of the map. -/
  | unlistedOp
  /-- `OP` is listed, `SUB` is not listed for it. -/
  | unlistedSub
  /-- A bit is set in a field the row does not use. -/
  | unusedField
  /-- `N` is outside the operation's range. -/
  | lengthField
  /-- The operand string has the wrong length. -/
  | operandLength
  deriving DecidableEq, Repr

/-- The rows in the order of R65. -/
def Row.all : List Row :=
  [.rxByte, .txDone, .enqLs, .enqUp, .enqDn, .qpend, .rdreg, .crc8,
   .buildLs, .buildUp, .buildDn, .classify, .remap, .reset]

/-- A row's `match` in opcode_table.json. -/
def Row.pattern : Row → EventWord
  | .rxByte   => 0x10000000
  | .txDone   => 0x20000000
  | .enqLs    => 0x30000000
  | .enqUp    => 0x31000000
  | .enqDn    => 0x32000000
  | .qpend    => 0x40000000
  | .rdreg    => 0x50000000
  | .crc8     => 0x80000000
  | .buildLs  => 0x90000000
  | .buildUp  => 0x91000000
  | .buildDn  => 0x92000000
  | .classify => 0xA0000000
  | .remap    => 0xB0000000
  | .reset    => 0xF0000000

/-- A row's `mask` in opcode_table.json. -/
def Row.mask : Row → EventWord
  | .rxByte   => 0xFF000000
  | .rdreg    => 0xFFFF0000
  | .crc8     => 0xFFFFFE00
  | .classify => 0xFFFFFE00
  | .txDone | .enqLs | .enqUp | .enqDn | .qpend
  | .buildLs | .buildUp | .buildDn | .remap | .reset => 0xFFFFFFFF

/-- R68: a row matches a word by its `match`/`mask` pair. -/
def Row.fits (r : Row) (w : EventWord) : Bool := (w &&& r.mask) == r.pattern

/-- The row that matches a word, if one does. -/
def rowOf (w : EventWord) : Option Row := Row.all.find? fun r => r.fits w

/-- `OP`, W[31:28] (R63). -/
def fieldOp (w : EventWord) : BitVec 4 := w.extractLsb' 28 4
/-- `SUB`, W[27:24] (R63). -/
def fieldSub (w : EventWord) : BitVec 4 := w.extractLsb' 24 4
/-- `B`, W[23:16] (R63). -/
def fieldB (w : EventWord) : Byte := w.extractLsb' 16 8
/-- `T` or `R`, W[15:0] (R63). -/
def fieldT (w : EventWord) : U16 := w.extractLsb' 0 16
/-- `N`, W[8:0] (R63). -/
def fieldN (w : EventWord) : Count := w.extractLsb' 0 9

/-- R67's name for a word that matches no row. -/
def rejectWord (w : EventWord) : Reserved :=
  if Row.all.any fun r => fieldOp r.pattern == fieldOp w then
    if Row.all.any fun r => fieldOp r.pattern == fieldOp w && fieldSub r.pattern == fieldSub w then
      .unusedField
    else .unlistedSub
  else .unlistedOp

/-- The length the operand string must have (R64); none where `N` is out of the operation's range. -/
def operandLen (c : Config) (r : Row) (w : EventWord) : Option Nat :=
  match r with
  | .enqLs | .buildLs => some c.psLs
  | .enqUp | .buildUp => some c.psUp
  | .enqDn | .buildDn => some c.psDn
  | .crc8 => if (fieldN w).toNat ≤ c.cap then some (fieldN w).toNat else none
  | .classify =>
    if 3 ≤ (fieldN w).toNat ∧ (fieldN w).toNat ≤ c.cap then some (fieldN w).toNat else none
  | .remap => some c.chBytes
  | .rxByte | .txDone | .qpend | .rdreg | .reset => some 0

/-- The instruction of a row, its fields pulled out of the event (R63, R65). -/
def Row.instr (r : Row) (e : Event) : Instr :=
  match r with
  | .rxByte   => .rxByte (fieldB e.word) (fieldT e.word)
  | .txDone   => .txDone
  | .enqLs    => .enqLs e.operand
  | .enqUp    => .enqUp e.operand
  | .enqDn    => .enqDn e.operand
  | .qpend    => .qpend
  | .rdreg    => .rdreg (fieldT e.word)
  | .crc8     => .crc8 e.operand
  | .buildLs  => .buildLs e.operand
  | .buildUp  => .buildUp e.operand
  | .buildDn  => .buildDn e.operand
  | .classify => .classify e.operand
  | .remap    => .remap e.operand
  | .reset    => .reset

/-- R68: decoding of `(W, P)`; an event that matches no row or fails an operand check is reserved (R67). -/
def decodeEvent (c : Config) (e : Event) : Except Reserved Instr :=
  match rowOf e.word with
  | none => .error (rejectWord e.word)
  | some r =>
    match operandLen c r e.word with
    | none => .error .lengthField
    | some n => if e.operand.length = n then .ok (r.instr e) else .error .operandLength

/-- The decoder `step` runs. -/
def decode (e : Event) : Except Reserved Instr := decodeEvent Config.chip e

/-- The event of an instruction: `{OP, SUB, fields}` by R63 and R65, and the operand string. -/
def encode : Instr → Event
  | .rxByte b t => { word := 0x10#8 ++ b ++ t, operand := [] }
  | .txDone     => { word := 0x20000000, operand := [] }
  | .enqLs p    => { word := 0x30000000, operand := p }
  | .enqUp p    => { word := 0x31000000, operand := p }
  | .enqDn p    => { word := 0x32000000, operand := p }
  | .qpend      => { word := 0x40000000, operand := [] }
  | .rdreg r    => { word := 0x50#8 ++ 0#8 ++ r, operand := [] }
  | .crc8 p     => { word := 0x80#8 ++ 0#15 ++ BitVec.ofNat 9 p.length, operand := p }
  | .buildLs p  => { word := 0x90000000, operand := p }
  | .buildUp p  => { word := 0x91000000, operand := p }
  | .buildDn p  => { word := 0x92000000, operand := p }
  | .classify p => { word := 0xA0#8 ++ 0#15 ++ BitVec.ofNat 9 p.length, operand := p }
  | .remap p    => { word := 0xB0000000, operand := p }
  | .reset      => { word := 0xF0000000, operand := [] }

/-- The event whose bits are `w`, numbered as spec/opcode_table.json numbers them: bits 31..0 are the event word;
operand byte `i` is bits 39+8i..32+8i. Bits above `nbits` are 0, so a table word of 32 bits brings an operand
string of zeros, as long as its row requires (log entry 4). -/
def tableEvent (nbits w : Nat) : Event :=
  let v := w % 2 ^ nbits
  let word := BitVec.ofNat 32 v
  let n := ((rowOf word).bind fun r => operandLen Config.chip r word).getD 0
  { word := word, operand := (List.range n).map fun i => BitVec.ofNat 8 (v / 2 ^ (32 + 8 * i)) }

/-- What the decoder reads from an instruction whose bits are `w` (none where it refuses). -/
def decodeTableWord (nbits w : Nat) : Option Instr :=
  match decode (tableEvent nbits w) with
  | .ok i => some i
  | .error _ => none

end Sys2Proof
end

