-- ==== Sys2Proof/Machine/Fetch.lean ====
section
/-!
DEFINITION. How the core comes by its next event: the environment delivers it (R21, R48).
-/

namespace Sys2Proof.Machine

/-- The next event the environment delivers, and the state with that event taken off the list; none between events. -/
def takeEvent (s : State) : Option (Event × State) :=
  match s.events with
  | [] => none
  | e :: rest => some (e, s.setEvents rest)

/-- Between events the core holds its state unchanged and does nothing (R157, R174). -/
def idleStep (s : State) : Host.Outcome State Fault Refusal := .next s

/-- A reserved event, whichever way it is reserved (R67). -/
def reservedStep (_ : Reserved) (s : State) : Host.Outcome State Fault Refusal := .next (reservedEvent s)

/-- The environment's next event is `e`; what it was to deliver follows. -/
def State.deliver (e : Event) (s : State) : State := s.setEvents (e :: s.events)

end Sys2Proof.Machine
end

