-- ==== Sys2Proof/Machine/Step.lean ====
section
/-!
DEFINITION. One step: the environment delivers its next event and the core processes it whole (R44, R48).
-/

namespace Sys2Proof.Machine

/-- One step. With no event waiting nothing happens (R157); a reserved event has R67's effect. -/
def step (s : State) : Host.Outcome State Fault Refusal :=
  match takeEvent s with
  | none => idleStep s
  | some (e, s') =>
    match decode e with
    | .ok i => exec i s'
    | .error r => reservedStep r s'

/-- The environment's next event is the one whose bits are `w` (log entry 3). -/
def State.withFetchWord (s : State) (nbits w : Nat) : State := s.deliver (tableEvent nbits w)

end Sys2Proof.Machine
end

