-- ==== Sys2Proof/Machine/Assembler.lean ====
section
/-!
DEFINITION. The event syntax of the spec's programs and its pseudo-instructions (R74 to R76): the events a line stands for.
-/

namespace Sys2Proof.Machine

/-- One line of a program (R74, R75). Numbers are as written, before their range is checked. -/
inductive AsmLine where
  | rx (b t : Nat)
  | txdone
  | enqLs (p : List Nat)
  | enqUp (p : List Nat)
  | enqDn (p : List Nat)
  | qpend
  | rdreg (r : Nat)
  | crc8 (p : List Nat)
  | buildLs (p : List Nat)
  | buildUp (p : List Nat)
  | buildDn (p : List Nat)
  | classify (p : List Nat)
  | remap (p : List Nat)
  | reset
  | rxs (p : List Nat) (t0 d : Nat)                 -- R75
  | frameIn (type : Nat) (p : List Nat) (t0 d : Nat)   -- R75
  | frameBad (type : Nat) (p : List Nat) (t0 d : Nat)  -- R75
  deriving DecidableEq, Repr

/-- A byte operand must be in 0..255; a program with a larger value is ill-formed (R76). -/
def asmByte (n : Nat) : Option Byte := if n < 256 then some (BitVec.ofNat 8 n) else none

/-- A byte list (R74). -/
def asmBytes : List Nat → Option (List Byte)
  | [] => some []
  | n :: ns => (asmByte n).bind fun b => (asmBytes ns).map fun bs => b :: bs

/-- A timestamp operand is taken modulo 2^16 (R76). -/
def asmTime (t : Nat) : U16 := BitVec.ofNat 16 t

/-- `rxs`: byte `i` at `t0 + i*d` (R75). -/
def rxStream (t0 d : Nat) : List Byte → List Instr
  | [] => []
  | b :: bs => .rxByte b (asmTime t0) :: rxStream (t0 + d) d bs

/-- The inbound frame `[ADDR_IN, k+2, type, p, crc]` that `frame.in` sends (R75). -/
def inboundFrame (c : Config) (type : Byte) (p : List Byte) : List Byte :=
  c.addrIn :: BitVec.ofNat 8 (p.length + 2) :: type :: p ++ [crc8 c (type :: p)]

/-- The frame of `frame.bad`: the CRC byte inverted (R75). -/
def inboundFrameBad (c : Config) (type : Byte) (p : List Byte) : List Byte :=
  c.addrIn :: BitVec.ofNat 8 (p.length + 2) :: type :: p ++ [crc8 c (type :: p) ^^^ 0xFF]

/-- R75's condition on the payload of `frame.in` and `frame.bad`: `k ≤ CAP - 4`. -/
def framePayloadFits (c : Config) (p : List Byte) : Bool := decide (p.length ≤ c.cap - 4)

/-- The operations a line stands for; none for an ill-formed line (R76, log entry 15). -/
def AsmLine.instrs (c : Config) : AsmLine → Option (List Instr)
  | .rx b t     => (asmByte b).map fun b => [.rxByte b (asmTime t)]
  | .txdone     => some [.txDone]
  | .enqLs p    => (asmBytes p).map fun p => [.enqLs p]
  | .enqUp p    => (asmBytes p).map fun p => [.enqUp p]
  | .enqDn p    => (asmBytes p).map fun p => [.enqDn p]
  | .qpend      => some [.qpend]
  | .rdreg r    => if r < 2 ^ 16 then some [.rdreg (BitVec.ofNat 16 r)] else none
  | .crc8 p     => (asmBytes p).map fun p => [.crc8 p]
  | .buildLs p  => (asmBytes p).map fun p => [.buildLs p]
  | .buildUp p  => (asmBytes p).map fun p => [.buildUp p]
  | .buildDn p  => (asmBytes p).map fun p => [.buildDn p]
  | .classify p => (asmBytes p).map fun p => [.classify p]
  | .remap p    => (asmBytes p).map fun p => [.remap p]
  | .reset      => some [.reset]
  | .rxs p t0 d => (asmBytes p).map (rxStream t0 d)
  | .frameIn ty p t0 d =>
    (asmByte ty).bind fun ty => (asmBytes p).bind fun p =>
      if framePayloadFits c p then some (rxStream t0 d (inboundFrame c ty p)) else none
  | .frameBad ty p t0 d =>
    (asmByte ty).bind fun ty => (asmBytes p).bind fun p =>
      if framePayloadFits c p then some (rxStream t0 d (inboundFrameBad c ty p)) else none

/-- The events of a program, line by line. -/
def assemble (c : Config) : List AsmLine → Option (List Event)
  | [] => some []
  | l :: ls => (l.instrs c).bind fun is => (assemble c ls).map fun es => is.map encode ++ es

end Sys2Proof.Machine
end

