-- ==== Sys2Proof/Machine/Generic.lean ====
section
/-!
DEFINITION. The core in every configuration (R8: a model takes each parameter as an argument). `exec` and `step` are these
at `Config.chip`; Laws/Step.lean proves it.
-/

namespace Sys2Proof.Machine

/-- What an operation does in the configuration `c`. It answers a state whatever the state it starts from (R140). -/
def perform (c : Config) (i : Instr) (s : State) : State :=
  match i with
  | .rxByte b t => rxByte c b t s
  | .txDone     => txDone s
  | .enqLs p    => enqEvent c .ls p s
  | .enqUp p    => enqEvent c .up p s
  | .enqDn p    => enqEvent c .dn p s
  | .qpend      => qpend s
  | .rdreg r    => rdreg c r s
  | .crc8 p     => crc8Event c p s
  | .buildLs p  => buildEvent c .ls p s
  | .buildUp p  => buildEvent c .up p s
  | .buildDn p  => buildEvent c .dn p s
  | .classify p => classifyEvent c p s
  | .remap p    => remapEvent c p s
  | .reset      => resetCore s

/-- One step in the configuration `c` (R44, R48). -/
def advance (c : Config) (s : State) : State :=
  match takeEvent s with
  | none => s
  | some (e, s') =>
    match decodeEvent c e with
    | .ok i => perform c i s'
    | .error _ => reservedEvent s'

end Sys2Proof.Machine
end

