-- ==== Sys2Proof/Machine/Payload.lean ====
section
/-!
DEFINITION. The payload layouts the producer marshals its values into (R61, R62, R151), and the packing of 16 channels
into the 22 bytes of a channel-data payload (R69, R121). The core copies payload bytes and never interprets them.
-/

namespace Sys2Proof.Machine

/-- The combined link-statistics payload (R61); a field marked i8 holds its two's-complement byte. -/
structure CombinedStats where
  upRssi1   : Byte
  upRssi2   : Byte
  upLq      : Byte
  upSnr     : Byte  -- i8
  antenna   : Byte
  mode      : Byte
  txPower   : Byte
  downRssi  : Byte
  downLq    : Byte
  downSnr   : Byte  -- i8
  deriving DecidableEq, Repr

/-- The uplink-only payload (R62). -/
structure UplinkStats where
  rssi        : Byte
  rssiPercent : Byte
  lq          : Byte
  snr         : Byte  -- i8
  txPower     : Byte
  frameRate   : Byte
  deriving DecidableEq, Repr

/-- The downlink-only payload (R62). -/
structure DownlinkStats where
  rssi        : Byte
  rssiPercent : Byte
  lq          : Byte
  snr         : Byte  -- i8
  txPower     : Byte
  deriving DecidableEq, Repr

/-- The byte order of R61. -/
def marshalCombined (v : CombinedStats) : List Byte :=
  [v.upRssi1, v.upRssi2, v.upLq, v.upSnr, v.antenna, v.mode, v.txPower, v.downRssi, v.downLq, v.downSnr]

/-- The byte order of R62, uplink only. -/
def marshalUplink (v : UplinkStats) : List Byte :=
  [v.rssi, v.rssiPercent, v.lq, v.snr, v.txPower, v.frameRate]

/-- The byte order of R62, downlink only. -/
def marshalDownlink (v : DownlinkStats) : List Byte :=
  [v.rssi, v.rssiPercent, v.lq, v.snr, v.txPower]

/-- `V = Σ ch[k] · 2^(w·k)`, the integer R121 reads channels of `w` bits from; a channel keeps its low `w` bits. -/
def packedInteger (w : Nat) : List Nat → Nat
  | [] => 0
  | v :: ch => v % 2 ^ w + 2 ^ w * packedInteger w ch

/-- The payload of a channel-data frame with these channels: the CH_BYTES of `V`, least significant first (R121). -/
def packChannels (c : Config) (ch : List Nat) : List Byte :=
  (List.range c.chBytes).map fun i => BitVec.ofNat 8 (packedInteger c.chBits ch / 2 ^ (8 * i))

end Sys2Proof.Machine
end

