-- ==== Sys2Proof/Safety.lean ====
section
/-!
DEFINITION. The terms claims use: the invariants of R34 to R37 and R46, a run of events (R174), and the environment's
duties (R152).
-/

namespace Sys2Proof.Machine

/-- What holds between events (R23, R24, R25, R34 to R37). In RECEIVING_CRC the length byte is also legal: it was checked
when it was stored (R84) and has not changed since. -/
structure Inv (c : Config) (s : State) : Prop where
  rxbWf      : s.rxb.wf = true
  txbWf      : s.txb.wf = true
  rxbWithin  : s.rxb.within c.cap = true
  txbWithin  : s.txb.within c.cap = true
  notPending : s.st ≠ .transmitPending
  inLength   : s.st = .receivingLength → s.cnt.toNat = 1
  inPayload  : s.st = .receivingPayload →
    2 ≤ s.rxL ∧ s.rxL ≤ c.cap - 2 ∧ 2 ≤ s.cnt.toNat ∧ s.cnt.toNat ≤ s.rxL
  inCrc      : s.st = .receivingCrc → 2 ≤ s.rxL ∧ s.rxL ≤ c.cap - 2 ∧ s.cnt.toNat = s.rxL + 1
  cntLe      : s.cnt.toNat ≤ c.cap
  queue      : s.txLen.toNat = 0 ∨ ∃ k : Kind, s.txLen.toNat = c.psize k + 4
  lineUp     : s.st = .transmitting → s.txEn = true

/-- While `frame_rx` is set, RXB holds one complete frame (R29, R46) and `crc_ok` says whether its CRC byte is the CRC-8
of its type and payload (R30, R58); while it is clear, `crc_ok` is clear. During reception `RXB[0]` is the address
byte that opened the frame (R83) and `frame_rx` is clear. -/
structure FrameInv (c : Config) (s : State) : Prop where
  receiving : s.st = .receivingLength ∨ s.st = .receivingPayload ∨ s.st = .receivingCrc →
    s.frameRx = false ∧ s.rxb.read 0 = c.addrIn
  complete : s.frameRx = true →
    (s.st = .idle ∨ s.st = .transmitting) ∧ 2 ≤ s.rxL ∧ s.rxL ≤ c.cap - 2 ∧ s.cnt.toNat = s.rxL + 2
      ∧ s.rxb.read 0 = c.addrIn
      ∧ s.crcOk = (s.rxb.read (s.rxL + 1) == crc8 c (s.rxb.readRange 2 (s.rxL - 1)))
  notOk : s.frameRx = false → s.crcOk = false

/-- A byte string is empty or a frame the encoder builds (R114). -/
def isBuilt (c : Config) (f : List Byte) : Prop :=
  f = [] ∨ ∃ k p, p.length = c.psize k ∧ f = buildFrame c k p

/-- The queued bytes are a built frame (R26, R130), and so is every burst handed to the transport (R90). -/
structure QueueInv (c : Config) (s : State) : Prop where
  queued : isBuilt c (s.txb.readRange 0 s.txLen.toNat)
  bursts : ∀ r ∈ s.responses, isBuilt c r.burst ∧ (r.dec = .start ↔ r.burst ≠ [])

/-- The line is transmit-enabled exactly in TRANSMITTING. It holds while the environment keeps the receive duty. -/
def LineInv (s : State) : Prop := s.txEn = true ↔ s.st = .transmitting

/-- R152, the receive duty: no RX_BYTE while the receiver is disabled. The model does not assume it (log entry 14). -/
def receiveDuty (s : State) (i : Instr) : Prop :=
  ∀ b t, i = .rxByte b t → s.txEn = false

/-- The operand length R64 requires, by `OP` and `SUB`; 0 where the operation takes none. -/
def requiredLength (c : Config) (e : Event) : Nat :=
  let op := (fieldOp e.word).toNat
  let sub := (fieldSub e.word).toNat
  if op = 0x3 ∨ op = 0x9 then (if sub = 0 then c.psLs else if sub = 1 then c.psUp else c.psDn)
  else if op = 0x8 ∨ op = 0xA then (fieldN e.word).toNat
  else if op = 0xB then c.chBytes
  else 0

/-- R67's list of reserved events, bullet by bullet, in terms of the fields of the event word. -/
def isReservedEvent (c : Config) (e : Event) : Prop :=
  let op := (fieldOp e.word).toNat
  let sub := (fieldSub e.word).toNat
  let n := (fieldN e.word).toNat
  op ∈ [0x0, 0x6, 0x7, 0xC, 0xD, 0xE]
  ∨ (op ∈ [0x3, 0x9] ∧ 3 ≤ sub)
  ∨ (op ∈ [0x1, 0x2, 0x4, 0x5, 0x8, 0xA, 0xB, 0xF] ∧ sub ≠ 0)
  ∨ (op ∈ [0x2, 0x3, 0x4, 0x9, 0xB, 0xF] ∧ e.word.extractLsb' 0 24 ≠ 0)
  ∨ (op = 0x5 ∧ fieldB e.word ≠ 0)
  ∨ (op ∈ [0x8, 0xA] ∧ e.word.extractLsb' 9 15 ≠ 0)
  ∨ (op = 0x8 ∧ c.cap < n)
  ∨ (op = 0xA ∧ (n < 3 ∨ c.cap < n))
  ∨ e.operand.length ≠ requiredLength c e

/-- A run (R174): the events of `es`, in order, from `s`. -/
def runEvents (s : State) (es : List Event) : Host.Outcome State Fault Refusal :=
  Sys2Proof.core.run es.length (s.setEvents es)

/-- RX_BYTE events for a byte string, each with its timestamp. -/
def rxEvents (bts : List (Byte × U16)) : List Event := bts.map fun bt => encode (.rxByte bt.1 bt.2)

/-- Each timestamp follows the one before it by at most TMO_US (R136): no timeout between the bytes. -/
def inTime (c : Config) : List U16 → Prop
  | [] => True
  | [_] => True
  | t :: u :: ts => (u - t).toNat % 2 ^ c.tsBits ≤ c.tmoUs ∧ inTime c (u :: ts)

/-- The core's registers and buffers agree; only what waits and what was answered may differ. -/
def sameCore (s t : State) : Prop :=
  s.st = t.st ∧ s.cnt = t.cnt ∧ s.rxb = t.rxb ∧ s.txb = t.txb ∧ s.txLen = t.txLen ∧ s.lastT = t.lastT
    ∧ s.txEn = t.txEn ∧ s.frameRx = t.frameRx ∧ s.crcOk = t.crcOk

end Sys2Proof.Machine
end

