-- ==== Sys2Proof/Certificates/Slice0/Obligations.lean ====
section
/-!
DEFINITION. The statements for the provers. Each docstring names the rule or the section it formalises. "The chip" is the
configuration `Config.chip` that `exec` and `step` run with (log entries 6 to 8); the response of an event is the last
element of the model's `responses` (log entry 2), and `{ s with … }` leaves the waiting `events` (log entry 1) as they are.
-/

open Sys2Proof Sys2Proof.Machine

/-! ### Encoding (30_encoding.md) -/

/-- R63 to R65, R68, in every configuration: decoding the event of a well-formed instruction gives it back. -/
def Obligations.DecodeEncodeEveryInstr : Prop :=
  ∀ (c : Config) (i : Instr), i.wellFormed c = true → decodeEvent c (encode i) = .ok i

/-- R64, R65, R68, in every configuration: what decodes is well-formed, and its encoding is the event it was read
from. -/
def Obligations.EncodeDecodeEveryEvent : Prop :=
  ∀ (c : Config) (e : Event) (i : Instr), decodeEvent c e = .ok i → i.wellFormed c = true ∧ encode i = e

/-- R68 (the spec's inference): "At most one row matches any word". -/
def Obligations.AtMostOneRowMatchesAnyWord : Prop :=
  ∀ (w : EventWord) (r q : Row), r.fits w = true → q.fits w = true → r = q

/-- R67, R68, in every configuration: the decoder rejects exactly the events R67 lists. -/
def Obligations.DecoderRejectsExactlyReserved : Prop :=
  ∀ (c : Config) (e : Event), (∃ r, decodeEvent c e = .error r) ↔ isReservedEvent c e

/-- A few event words written out from R63 and R65 (the words of 95_test_vectors.md) decode to what they stand for. -/
def Obligations.SampleWordsDecode : Prop :=
  decode { word := 0x10C80064, operand := [] } = .ok (.rxByte 0xC8 100)
  ∧ decode { word := 0x20000000, operand := [] } = .ok .txDone
  ∧ decode { word := 0x32000000, operand := [0x50, 0x55, 0x63, 0xFB, 0x03] }
      = .ok (.enqDn [0x50, 0x55, 0x63, 0xFB, 0x03])
  ∧ decode { word := 0x50000100, operand := [] } = .ok (.rdreg 0x0100)
  ∧ decode { word := 0x80000001, operand := [0x01] } = .ok (.crc8 [0x01])
  ∧ decode { word := 0xA0000003, operand := [0xC8, 0x18, 0x16] } = .ok (.classify [0xC8, 0x18, 0x16])
  ∧ decode { word := 0xF0000001, operand := [] } = .error .unusedField
  ∧ decode { word := 0x33000000, operand := [] } = .error .unlistedSub
  ∧ decode { word := 0x60000000, operand := [] } = .error .unlistedOp

/-! ### The step and the record of responses (R44, R48, R66, R174) -/

/-- R48: the delivered event is processed whole by the meaning of the instruction it decodes to, on the state with
that event taken off the list of waiting events. -/
def Obligations.StepRunsDeliveredEvent : Prop :=
  ∀ (s : State) (e : Event) (rest : List Event) (i : Instr),
    s.events = e :: rest → decode e = .ok i → step s = exec i { s with events := rest }

/-- R157, R174: between events nothing happens. A step with no event waiting is the model's form of it (log entry
1). -/
def Obligations.StepWithoutEventChangesNothing : Prop :=
  ∀ s : State, s.events = [] → step s = .next s

/-- R67: a reserved event changes no register and no buffer; its response is the default record with RESERVED_EVENT.
-/
def Obligations.ReservedEventChangesNoState : Prop :=
  ∀ (s : State) (e : Event) (rest : List Event), s.events = e :: rest → isReservedEvent Config.chip e →
    step s = .next { s with events := rest, responses := s.responses ++ [{ diag := 0x80 }] }

/-- R63, R66: each delivered event is answered by one response record, and no earlier record changes. -/
def Obligations.EveryEventAnsweredOnce : Prop :=
  ∀ (s t : State) (e : Event) (rest : List Event), s.events = e :: rest → step s = .next t →
    t.events = rest ∧ ∃ r, t.responses = s.responses ++ [r]

/-! ### Reset (70_reset_and_hazards.md) -/

/-- R38: the reset values, byte by byte for the buffers, and STATUS. -/
def Obligations.ResetValues : Prop :=
  State.reset.st = .idle ∧ State.reset.cnt = 0 ∧ State.reset.txLen = 0 ∧ State.reset.lastT = 0
  ∧ State.reset.txEn = false ∧ State.reset.frameRx = false ∧ State.reset.crcOk = false
  ∧ (∀ a, State.reset.rxb.read a = 0) ∧ (∀ a, State.reset.txb.read a = 0)
  ∧ State.reset.status = 0

/-- R160: from any state, RESET puts every register and buffer at its reset value and answers the default record. -/
def Obligations.ResetEventRestoresEverything : Prop :=
  decode { word := 0xF0000000, operand := [] } = .ok .reset
  ∧ ∀ s : State, ∃ t, exec .reset s = .next t ∧ sameCore t State.reset
      ∧ t.responses = s.responses ++ [({} : Response)]

/-- R38, R163 (the spec's inferences): RX_BYTE in IDLE does not read the time mark; it does the same whatever the mark holds.
RDREG 0x0003 does read the mark in IDLE, as in every phase (R38). -/
def Obligations.RxByteInIdleIgnoresTimeMark : Prop :=
  ∀ (c : Config) (b : Byte) (t u : U16) (s : State), s.st = .idle →
    rxByte c b t { s with lastT := u } = rxByte c b t s

/-! ### Invariants (10_state.md section 4) -/

/-- The invariants hold after reset: those of R34 to R37, and those of `frame_rx` and `crc_ok` (R29, R30, R46), of the
queue (R130) and of the line. -/
def Obligations.InvAtReset : Prop :=
  Inv Config.chip State.reset ∧ FrameInv Config.chip State.reset ∧ QueueInv Config.chip State.reset
  ∧ LineInv State.reset

/-- R34 to R37 (the spec's inferences): every step keeps them, from every state that meets them. -/
def Obligations.EveryStepKeepsInv : Prop :=
  ∀ s t : State, Inv Config.chip s → step s = .next t → Inv Config.chip t

/-- R140: whatever the state, no event faults and none is refused, as an instruction and as a step; and the core
recovers by itself: one timeout after the last byte, the next byte that opens no frame finds it back in IDLE. -/
def Obligations.NoEventFaults : Prop :=
  (∀ (i : Instr) (s : State), ∃ t, exec i s = .next t)
  ∧ (∀ s : State, ∃ t, step s = .next t)
  ∧ ∀ (b : Byte) (t : U16) (s : State), b ≠ Config.chip.addrIn → 500 < (t - s.lastT).toNat →
      ∃ u, exec (.rxByte b t) s = .next u ∧ u.st = .idle

/-- R34 to R37 for RX_BYTE in every configuration that meets R9, not only the chip's. -/
def Obligations.RxByteKeepsInvInEveryConfig : Prop :=
  ∀ (c : Config) (b : Byte) (t : U16) (s : State), Inv c s → Inv c (rxByte c b t s)

/-- R8, R34 to R37 (the spec's inferences): the chip is the core at one configuration, and in every configuration each
step keeps the invariant of that configuration. -/
def Obligations.EveryConfigKeepsInv : Prop :=
  (∀ s : State, step s = .next (advance Config.chip s))
  ∧ ∀ (c : Config) (s : State), Inv c s → Inv c (advance c s)

/-- R29, R30, R46: `frame_rx` says that RXB holds one complete frame and `crc_ok` that its CRC byte matches. -/
def Obligations.EveryStepKeepsFrameInv : Prop :=
  ∀ s t : State, Inv Config.chip s → FrameInv Config.chip s → step s = .next t → FrameInv Config.chip t

/-- R36, R66, R114, R130: the queue holds a built frame or nothing, every burst ever handed to the transport is a
built frame, and a burst goes with START and only with START. -/
def Obligations.EveryStepKeepsQueueInv : Prop :=
  ∀ s t : State, QueueInv Config.chip s → step s = .next t → QueueInv Config.chip t

/-- R37, R152: while the environment keeps the receive duty, the line is transmit-enabled exactly in TRANSMITTING
and no byte is ignored. -/
def Obligations.ReceiveDutyKeepsLineInv : Prop :=
  ∀ (i : Instr) (s t : State), Inv Config.chip s → LineInv s → receiveDuty s i → exec i s = .next t →
    LineInv t ∧ ∃ r, t.responses = s.responses ++ [r] ∧ r.diag.getLsbD 5 = false

/-- R140, R174: every run of any events, from any state that meets the invariant, processes all of them, one response
for each. -/
def Obligations.EveryRunCompletes : Prop :=
  ∀ (s : State) (es : List Event), Inv Config.chip s →
    ∃ t, runEvents s es = .next t ∧ Inv Config.chip t ∧ t.events = []
      ∧ t.responses.length = s.responses.length + es.length

/-! ### RX_BYTE (40_frame_state_machine.md section 1) -/

/-- R82: the timestamp is recorded in every state. -/
def Obligations.RxByteRecordsTimestamp : Prop :=
  ∀ (b : Byte) (t : U16) (s : State), Inv Config.chip s → ∃ u, exec (.rxByte b t) s = .next u ∧ u.lastT = t

/-- R81: the timeout fires exactly when `st != IDLE` and the elapsed time, modulo 2^16, exceeds TMO_US; the byte is
then handled as in IDLE, and TIMEOUT_ABORT is the only other trace of it. -/
def Obligations.RxTimeoutExactly : Prop :=
  ∀ (b : Byte) (t : U16) (s : State), Inv Config.chip s →
    ∃ u r, exec (.rxByte b t) s = .next u ∧ u.responses = s.responses ++ [r]
      ∧ (r.diag.getLsbD 1 = true ↔ s.st ≠ .idle ∧ 500 < (t - s.lastT).toNat)
      ∧ (s.st ≠ .idle ∧ 500 < (t - s.lastT).toNat → r.chan = none ∧
          ∃ v q, exec (.rxByte b t) { s with st := .idle } = .next v ∧ sameCore u v
            ∧ v.responses = s.responses ++ [q] ∧ r = { q with diag := q.diag ||| 0x02 })

/-- R98, R165 (the spec's inferences from R81 and R83): after a timeout, in whatever state the partial frame was,
the byte is a fresh potential address byte. The line direction stays as it was, in TRANSMITTING too (R37). -/
def Obligations.TimedOutByteIsFreshAddressByte : Prop :=
  ∀ (b : Byte) (t : U16) (s : State), s.st ≠ .idle → 500 < (t - s.lastT).toNat →
    if b = Config.chip.addrIn then
      ∃ m : Memory, (∀ a, m.read a = if a = 0 then b else s.rxb.read a)
        ∧ exec (.rxByte b t) s = .next
            { s with st := .receivingLength, cnt := 1, rxb := m, frameRx := false, crcOk := false, lastT := t,
                     responses := s.responses ++ [{ diag := 0x02 }] }
    else
      exec (.rxByte b t) s = .next
        { s with st := .idle, lastT := t, responses := s.responses ++ [{ diag := 0x03 }] }

/-- R83: in IDLE the address byte, and only it, opens a frame. -/
def Obligations.RxByteInIdle : Prop :=
  ∀ (b : Byte) (t : U16) (s : State), s.st = .idle →
    if b = Config.chip.addrIn then
      ∃ m : Memory, (∀ a, m.read a = if a = 0 then b else s.rxb.read a)
        ∧ exec (.rxByte b t) s = .next
            { s with st := .receivingLength, cnt := 1, rxb := m, frameRx := false, crcOk := false, lastT := t,
                     responses := s.responses ++ [{}] }
    else
      exec (.rxByte b t) s = .next { s with lastT := t, responses := s.responses ++ [{ diag := 0x01 }] }

/-- R59, R84: the length byte is stored at `RXB[1]`; outside 2..CAP-2 the frame is abandoned with LEN_REJECT. -/
def Obligations.RxByteInReceivingLength : Prop :=
  ∀ (b : Byte) (t : U16) (s : State), Inv Config.chip s → s.st = .receivingLength →
    (t - s.lastT).toNat ≤ 500 →
    ∃ m : Memory, (∀ a, m.read a = if a = 1 then b else s.rxb.read a)
      ∧ exec (.rxByte b t) s = .next
          (if 2 ≤ b.toNat ∧ b.toNat ≤ 126 then
            { s with st := .receivingPayload, cnt := 2, rxb := m, lastT := t, responses := s.responses ++ [{}] }
          else
            { s with st := .idle, cnt := 2, rxb := m, lastT := t,
                     responses := s.responses ++ [{ diag := 0x04 }] })

/-- R85: a type or payload byte is stored at `RXB[cnt]`; the one that brings `cnt` to `L + 1` ends the payload. -/
def Obligations.RxByteInReceivingPayload : Prop :=
  ∀ (b : Byte) (t : U16) (s : State), Inv Config.chip s → s.st = .receivingPayload →
    (t - s.lastT).toNat ≤ 500 →
    ∃ m : Memory, (∀ a, m.read a = if a = s.cnt.toNat then b else s.rxb.read a)
      ∧ exec (.rxByte b t) s = .next
          { s with st := if s.cnt.toNat + 1 = (s.rxb.read 1).toNat + 1 then .receivingCrc else .receivingPayload,
                   cnt := s.cnt + 1, rxb := m, lastT := t, responses := s.responses ++ [{}] }

/-- R58, R86, R90, R91: the CRC byte is stored and checked against the bytes at offsets 2..L, the frame is marked
received, the channels of a channel-data frame are delivered, and step 4 follows. `RXB` changes at `cnt` alone, and
`TXB` not at all. -/
def Obligations.RxByteCompletesFrame : Prop :=
  ∀ (b : Byte) (t : U16) (s : State), Inv Config.chip s → s.st = .receivingCrc → (t - s.lastT).toNat ≤ 500 →
    ∃ (m : Memory) (r : Response), (∀ a, m.read a = if a = s.cnt.toNat then b else s.rxb.read a)
      ∧ exec (.rxByte b t) s = .next
          { s with st := if s.txLen = 0 then .idle else .transmitting, cnt := s.cnt + 1, rxb := m, lastT := t,
                   frameRx := true, crcOk := b == crc8 Config.chip (s.rxb.readRange 2 ((s.rxb.read 1).toNat - 1)),
                   txEn := if s.txLen = 0 then s.txEn else true, txLen := 0,
                   responses := s.responses ++ [r] }
      ∧ r.diag = (if b = crc8 Config.chip (s.rxb.readRange 2 ((s.rxb.read 1).toNat - 1)) then 0 else 0x08)
      ∧ r.chan = (if s.rxb.read 2 = Config.chip.tChan then
          some (remapChannels Config.chip (m.readRange 3 22)) else none)
      ∧ r.ack = false ∧ r.value = none

/-- R90, R91: at the end of a received frame the whole queued frame goes to the transport, in index order, and the
queue is empty; with an empty queue nothing is sent and the core falls back to IDLE. -/
def Obligations.TurnaroundDrainsQueue : Prop :=
  ∀ (b : Byte) (t : U16) (s : State), Inv Config.chip s → s.st = .receivingCrc → (t - s.lastT).toNat ≤ 500 →
    ∃ u r, exec (.rxByte b t) s = .next u ∧ u.responses = s.responses ++ [r] ∧ u.txLen = 0 ∧ u.txb = s.txb
      ∧ (s.txLen ≠ 0 → u.st = .transmitting ∧ u.txEn = true ∧ r.dec = .start
          ∧ r.burst.length = s.txLen.toNat
          ∧ ∀ i (h : i < r.burst.length), r.burst[i] = s.txb.read i)
      ∧ (s.txLen = 0 → u.st = .idle ∧ u.txEn = s.txEn ∧ r.dec = .noTransmission ∧ r.burst = [])

/-- R87, R118, R169: the channels are delivered in the completing event, exactly for a frame of type T_CHAN, from
`RXB[3..24]` as they stand after the CRC byte is stored, whatever `L` is. -/
def Obligations.ChannelsDeliveredForChannelFrame : Prop :=
  ∀ (b : Byte) (t : U16) (s : State), Inv Config.chip s → s.st = .receivingCrc → (t - s.lastT).toNat ≤ 500 →
    ∃ u r, exec (.rxByte b t) s = .next u ∧ u.responses = s.responses ++ [r]
      ∧ r.chan = if s.rxb.read 2 = Config.chip.tChan then
          some (remapChannels Config.chip (u.rxb.readRange 3 22)) else none

/-- R66, R150: no other event delivers channels, and no other event starts a transmission. -/
def Obligations.ChannelsAndStartOnlyAtFrameEnd : Prop :=
  ∀ (i : Instr) (s t : State), Inv Config.chip s → exec i s = .next t →
    ∃ r, t.responses = s.responses ++ [r]
      ∧ (r.chan ≠ none ∨ r.dec = .start →
          s.st = .receivingCrc ∧ ∃ b u, i = .rxByte b u ∧ (u - s.lastT).toNat ≤ 500)

/-- R97: the CRC byte gates nothing. Whatever byte arrives in its place, the same transition is taken, the same burst
goes out, and channels are delivered or not alike. -/
def Obligations.CrcNeverGates : Prop :=
  ∀ (b b' : Byte) (t : U16) (s : State), Inv Config.chip s → s.st = .receivingCrc →
    (t - s.lastT).toNat ≤ 500 →
    ∃ u u' r r', exec (.rxByte b t) s = .next u ∧ exec (.rxByte b' t) s = .next u'
      ∧ u.responses = s.responses ++ [r] ∧ u'.responses = s.responses ++ [r']
      ∧ u.st = u'.st ∧ u.frameRx = true ∧ u'.frameRx = true ∧ u.txLen = u'.txLen ∧ u.txEn = u'.txEn
      ∧ r.dec = r'.dec ∧ r.burst = r'.burst ∧ r.chan.isSome = r'.chan.isSome

/-- R88: a byte in TRANSMITTING is discarded and only the time mark changes; where the timeout fired, the byte is a
potential address byte, and the line stays transmit-enabled. -/
def Obligations.RxByteInTransmitting : Prop :=
  ∀ (b : Byte) (t : U16) (s : State), s.st = .transmitting →
    if (t - s.lastT).toNat ≤ 500 then
      exec (.rxByte b t) s = .next { s with lastT := t, responses := s.responses ++ [{ diag := 0x20 }] }
    else
      ∃ u, exec (.rxByte b t) s = .next u ∧ u.txEn = s.txEn ∧ u.lastT = t
        ∧ u.st = if b = Config.chip.addrIn then .receivingLength else .idle

/-- R89: in the unreachable TRANSMIT_PENDING the byte is treated as in TRANSMITTING, and step 4 then acts as it does
in that state (log entry 10: DEDUCED from the consolidated listing). Stated for an empty queue. -/
def Obligations.RxByteInTransmitPending : Prop :=
  ∀ (b : Byte) (t : U16) (s : State), s.st = .transmitPending → (t - s.lastT).toNat ≤ 500 → s.txLen = 0 →
    exec (.rxByte b t) s = .next
      { s with st := .idle, lastT := t, responses := s.responses ++ [{ diag := 0x20 }] }

/-- R24, R25, R160: RXB changes only in RX_BYTE, at the index the cursor has just passed and to the byte received, and in
RESET; TXB changes only in an ENQ_* that found the queue empty, at an index of the frame it queues, and in RESET. In
every state. -/
def Obligations.OnlyTheirEventsWriteTheBuffers : Prop :=
  ∀ (i : Instr) (s t : State), exec i s = .next t →
    (∀ a, t.rxb.read a ≠ s.rxb.read a →
      i = .reset ∨ ∃ b u, i = .rxByte b u ∧ t.rxb.read a = b ∧ t.cnt.toNat = a + 1 ∧ a < 128)
    ∧ (∀ a, t.txb.read a ≠ s.txb.read a →
      i = .reset ∨ (s.txLen = 0 ∧ a < t.txLen.toNat ∧ ∃ p, i = .enqLs p ∨ i = .enqUp p ∨ i = .enqDn p))

/-- R101 (the spec's inference): inside a frame a byte equal to ADDR_IN is data: it is stored, and no new frame
begins. -/
def Obligations.AddressByteInsideFrameIsData : Prop :=
  ∀ (t : U16) (s : State), Inv Config.chip s →
    s.st = .receivingLength ∨ s.st = .receivingPayload ∨ s.st = .receivingCrc →
    (t - s.lastT).toNat ≤ 500 →
    ∃ u, exec (.rxByte Config.chip.addrIn t) s = .next u ∧ u.st ≠ .receivingLength
      ∧ u.cnt.toNat = s.cnt.toNat + 1 ∧ u.rxb.read s.cnt.toNat = Config.chip.addrIn

/-- R99 (the spec's inference): only the difference of the timestamps counts, modulo 2^16: shifting both by the same
amount changes nothing but the mark itself. -/
def Obligations.OnlyElapsedTimeCounts : Prop :=
  ∀ (c : Config) (b : Byte) (t k : U16) (s : State),
    rxByte c b (t + k) { s with lastT := s.lastT + k } = { rxByte c b t s with lastT := t + k }

/-- R100 (the spec's inference): bytes that are not the address leave the core in IDLE; they change the time mark
and nothing else, each answered by ADDR_DISCARD alone. -/
def Obligations.NoiseInIdleChangesNothing : Prop :=
  ∀ (s : State) (bts : List (Byte × U16)), s.st = .idle → (∀ bt ∈ bts, bt.1 ≠ Config.chip.addrIn) →
    runEvents s (rxEvents bts) = .next
      { s with events := [], lastT := (bts.getLast?.map Prod.snd).getD s.lastT,
               responses := s.responses ++ List.replicate bts.length { diag := 0x01 } }

/-- R55 to R58, R75, R86: an inbound frame fed byte by byte from IDLE, in time, is received whole; its CRC flag is set
for the right CRC byte and clear for an inverted one. -/
def Obligations.InboundFrameIsReceivedWhole : Prop :=
  ∀ (s : State) (type : Byte) (p : List Byte) (ts : List U16), Inv Config.chip s → s.st = .idle →
    p.length ≤ 124 → ts.length = p.length + 4 → inTime Config.chip ts →
    (∃ u, runEvents s (rxEvents ((inboundFrame Config.chip type p).zip ts)) = .next u
      ∧ u.rxb.readRange 0 (p.length + 4) = inboundFrame Config.chip type p
      ∧ u.cnt.toNat = p.length + 4 ∧ u.frameRx = true ∧ u.crcOk = true)
    ∧ (∃ u, runEvents s (rxEvents ((inboundFrameBad Config.chip type p).zip ts)) = .next u
      ∧ u.rxb.readRange 0 (p.length + 4) = inboundFrameBad Config.chip type p
      ∧ u.cnt.toNat = p.length + 4 ∧ u.frameRx = true ∧ u.crcOk = false)

/-- R136 (the spec's inference), in every configuration with ADDR_OUT = ADDR_IN: a built frame fed byte by byte
through RX_BYTE, in time, from IDLE, is rebuilt in RXB with `crc_ok` set. -/
def Obligations.BuiltFrameRoundTrip : Prop :=
  ∀ (c : Config) (k : Kind) (p : List Byte) (ts : List U16) (s : State), c.addrOut = c.addrIn →
    p.length = c.psize k → Inv c s → s.st = .idle → ts.length = p.length + 4 → inTime c ts →
    ∃ u, u = ((buildFrame c k p).zip ts).foldl (fun s bt => rxByte c bt.1 bt.2 s) s
      ∧ u.rxb.readRange 0 (p.length + 4) = buildFrame c k p
      ∧ u.cnt.toNat = p.length + 4 ∧ u.frameRx = true ∧ u.crcOk = true

/-- R158 (the spec's inference): the diagnostic bits one event can set together, in every state. -/
def Obligations.DiagBitsOfOneEvent : Prop :=
  ∀ (i : Instr) (s t : State), exec i s = .next t →
    ∃ r, t.responses = s.responses ++ [r]
      ∧ r.diag ∈ [0x00, 0x01, 0x02, 0x03, 0x04, 0x08, 0x10, 0x20, 0x40, (0x80 : Byte)]
      ∧ (r.diag = 0x03 → ∃ b u, i = .rxByte b u)

/-- R24, R25: the bytes of TXB play no part in reception; two states that differ in them alone end alike, but for the
burst. -/
def Obligations.TxbPlaysNoPartInReception : Prop :=
  ∀ (c : Config) (b : Byte) (t : U16) (s u v : State) (m : Memory),
    u = rxByte c b t s → v = rxByte c b t { s with txb := m } →
    ∃ r q, u.responses = s.responses ++ [r] ∧ v.responses = s.responses ++ [q]
      ∧ { v with txb := s.txb, responses := u.responses } = u ∧ { q with burst := r.burst } = r

/-! ### TX_DONE, QPEND, RDREG (R94 to R96) -/

/-- R94: TX_DONE enables reception and returns to IDLE in every state, reports SPURIOUS_TXDONE outside TRANSMITTING,
and changes nothing else. -/
def Obligations.TxDoneInEveryState : Prop :=
  decode { word := 0x20000000, operand := [] } = .ok .txDone
  ∧ ∀ s : State, exec .txDone s = .next
      { s with txEn := false, st := .idle,
               responses := s.responses ++ [{ diag := if s.st = .transmitting then 0 else 0x40 }] }

/-- R95: QPEND returns whether a frame is queued and changes nothing. -/
def Obligations.QpendReportsQueue : Prop :=
  decode { word := 0x40000000, operand := [] } = .ok .qpend
  ∧ ∀ s : State, exec .qpend s = .next
      { s with responses := s.responses ++ [{ value := some (.flag (decide (s.txLen.toNat ≠ 0))) }] }

/-- R32, R33, R96: RDREG returns the register of that number, and 0 with RESERVED_EVENT for every other number; it
changes nothing. -/
def Obligations.RdregReadsTheMap : Prop :=
  ∀ (n : U16) (s : State), decode { word := 0x5000#16 ++ n, operand := [] } = .ok (.rdreg n)
    ∧ ∃ (v : U16) (d : Byte),
    exec (.rdreg n) s = .next { s with responses := s.responses ++ [{ value := some (.register v), diag := d }] }
    ∧ (if n.toNat = 0 then
        d = 0 ∧ v.toNat = s.st.code.toNat + 8 * s.txEn.toNat + 16 * s.frameRx.toNat + 32 * s.crcOk.toNat
          + 64 * (decide (s.txLen.toNat ≠ 0)).toNat
      else if n.toNat = 1 then d = 0 ∧ v.toNat = s.cnt.toNat
      else if n.toNat = 2 then d = 0 ∧ v.toNat = s.txLen.toNat
      else if n.toNat = 3 then d = 0 ∧ v = s.lastT
      else if 0x100 ≤ n.toNat ∧ n.toNat < 0x180 then d = 0 ∧ v.toNat = (s.rxb.read (n.toNat - 0x100)).toNat
      else if 0x200 ≤ n.toNat ∧ n.toNat < 0x280 then d = 0 ∧ v.toNat = (s.txb.read (n.toNat - 0x200)).toNat
      else d = 0x80 ∧ v = 0)

/-! ### ENQ_* (42_telemetry_enqueue.md) -/

/-- R130, for each of the three kinds: with a frame queued the enqueue is dropped, `ack` = 0, and nothing else
changes; otherwise the built frame is written from `TXB[0]` and its length queued, `ack` = 1, and every other byte
of TXB and every other register stays. In every protocol state. -/
def Obligations.EnqueueChecksThenWrites : Prop :=
  ∀ (p : List Byte) (s : State),
    (p.length = 10 →
      if s.txLen ≠ 0 then
        exec (.enqLs p) s = .next { s with responses := s.responses ++ [{ ack := false, diag := 0x10 }] }
      else ∃ m : Memory, (∀ a, m.read a = if a < 14 then (buildFrame Config.chip .ls p).getD a 0 else s.txb.read a)
        ∧ exec (.enqLs p) s = .next
            { s with txb := m, txLen := 14, responses := s.responses ++ [{ ack := true }] })
    ∧ (p.length = 6 →
      if s.txLen ≠ 0 then
        exec (.enqUp p) s = .next { s with responses := s.responses ++ [{ ack := false, diag := 0x10 }] }
      else ∃ m : Memory, (∀ a, m.read a = if a < 10 then (buildFrame Config.chip .up p).getD a 0 else s.txb.read a)
        ∧ exec (.enqUp p) s = .next
            { s with txb := m, txLen := 10, responses := s.responses ++ [{ ack := true }] })
    ∧ (p.length = 5 →
      if s.txLen ≠ 0 then
        exec (.enqDn p) s = .next { s with responses := s.responses ++ [{ ack := false, diag := 0x10 }] }
      else ∃ m : Memory, (∀ a, m.read a = if a < 9 then (buildFrame Config.chip .dn p).getD a 0 else s.txb.read a)
        ∧ exec (.enqDn p) s = .next
            { s with txb := m, txLen := 9, responses := s.responses ++ [{ ack := true }] })

/-- R135, R170 (the spec's inferences): a queued frame leaves the queue only with START at the end of an inbound
frame, which sends it whole, or by RESET; until then no event changes it. -/
def Obligations.QueuedFrameStaysUntilSentOrReset : Prop :=
  ∀ (i : Instr) (s t : State), Inv Config.chip s → s.txLen ≠ 0 → exec i s = .next t →
    (t.txLen = s.txLen ∧ t.txb = s.txb) ∨ i = .reset
    ∨ (∃ r, t.responses = s.responses ++ [r] ∧ r.dec = .start ∧ r.burst = s.txb.readRange 0 s.txLen.toNat
        ∧ t.txLen = 0 ∧ t.txb = s.txb)

/-- R61, R131: each field of a marshalled combined payload stands at its frame offset in TXB after an accepted
ENQ_LS. -/
def Obligations.CombinedFieldsStandAtTheirOffsets : Prop :=
  ∀ (v : CombinedStats) (s : State), s.txLen = 0 →
    ∃ u, exec (.enqLs (marshalCombined v)) s = .next u
      ∧ u.txb.read 3 = v.upRssi1 ∧ u.txb.read 4 = v.upRssi2 ∧ u.txb.read 5 = v.upLq ∧ u.txb.read 6 = v.upSnr
      ∧ u.txb.read 7 = v.antenna ∧ u.txb.read 8 = v.mode ∧ u.txb.read 9 = v.txPower
      ∧ u.txb.read 10 = v.downRssi ∧ u.txb.read 11 = v.downLq ∧ u.txb.read 12 = v.downSnr

/-- R64, R67: an operation whose operand string has the wrong length is a reserved event, also when `exec` is asked
for it without the decoder (log entry 11). -/
def Obligations.WrongOperandLengthIsReserved : Prop :=
  ∀ (i : Instr) (s : State), i.wellFormed Config.chip = false →
    exec i s = .next { s with responses := s.responses ++ [{ diag := 0x80 }] }

/-! ### The codec (41_frame_codec.md) -/

/-- R124: no codec event changes a register or a buffer. -/
def Obligations.CodecEventsChangeNoState : Prop :=
  ∀ (p : List Byte) (s : State),
    ∀ i ∈ [Instr.crc8 p, .buildLs p, .buildUp p, .buildDn p, .classify p, .remap p],
      ∃ r, exec i s = .next { s with responses := s.responses ++ [r] }

/-- R112: CRC8 returns the CRC-8 of its operand string. -/
def Obligations.CrcEventReturnsCrc : Prop :=
  ∀ (p : List Byte) (s : State), p.length ≤ 128 →
    exec (.crc8 p) s = .next
      { s with responses := s.responses ++ [{ value := some (.crc (crc8 Config.chip p)) }] }

/-- R110: the values the rule gives, the published check value among them. -/
def Obligations.CrcCheckValues : Prop :=
  crc8 Config.chip [] = 0x00 ∧ crc8 Config.chip [0x01] = 0xD5 ∧ crc8 Config.chip [0x80] = 0xEF
  ∧ crc8 Config.chip [0xFF] = 0xF9
  ∧ crc8 Config.chip [0x31, 0x32, 0x33, 0x34, 0x35, 0x36, 0x37, 0x38, 0x39] = 0xBC

/-- R113 (the spec's inferences): CRC8 is linear over GF(2) on strings of equal length, every single-bit error
changes it, and appending a string's CRC gives a zero residue. -/
def Obligations.CrcAlgebra : Prop :=
  (∀ p q : List Byte, p.length = q.length →
    crc8 Config.chip (List.zipWith (· ^^^ ·) p q) = crc8 Config.chip p ^^^ crc8 Config.chip q)
  ∧ (∀ (p q : List Byte) (b : Byte) (j : Fin 8),
    crc8 Config.chip (p ++ (b ^^^ (1#8 <<< j.val)) :: q) ≠ crc8 Config.chip (p ++ b :: q))
  ∧ ∀ p : List Byte, crc8 Config.chip (p ++ [crc8 Config.chip p]) = 0

/-- R55 to R58, R114 to R117: BUILD_* return `[ADDR_OUT, PSIZE + 2, TYPE, payload, crc]`. -/
def Obligations.BuildEventsReturnFrame : Prop :=
  ∀ (p : List Byte) (s : State),
    (p.length = 10 → exec (.buildLs p) s = .next { s with responses := s.responses ++
      [{ value := some (.frame ([Config.chip.addrOut, 12, Config.chip.tLs] ++ p
          ++ [crc8 Config.chip ([Config.chip.tLs] ++ p)])) }] })
    ∧ (p.length = 6 → exec (.buildUp p) s = .next { s with responses := s.responses ++
      [{ value := some (.frame ([Config.chip.addrOut, 8, Config.chip.tUp] ++ p
          ++ [crc8 Config.chip ([Config.chip.tUp] ++ p)])) }] })
    ∧ (p.length = 5 → exec (.buildDn p) s = .next { s with responses := s.responses ++
      [{ value := some (.frame ([Config.chip.addrOut, 7, Config.chip.tDn] ++ p
          ++ [crc8 Config.chip ([Config.chip.tDn] ++ p)])) }] })

/-- R118, R119: CLASSIFY compares the byte at offset 2 with T_CHAN and reads no other. -/
def Obligations.ClassifyReadsTypeByteOnly : Prop :=
  ∀ (b0 b1 b2 : Byte) (p : List Byte) (s : State), p.length ≤ 125 →
    exec (.classify (b0 :: b1 :: b2 :: p)) s = .next
      { s with responses := s.responses ++ [{ value := some (.flag (decide (b2 = Config.chip.tChan))) }] }

/-- R121: a channel is an unsigned 11-bit value, and its bit `j` is bit `11k + j` of the payload, the least significant
bit of its first byte first. -/
def Obligations.ChannelBitsAreLittleEndian : Prop :=
  ∀ (p : List Byte) (k : Nat), p.length = 22 → k < 16 →
    unpackChannel Config.chip p k < 2048
    ∧ ∀ j, j < 11 → (unpackChannel Config.chip p k).testBit j
        = (p.getD ((11 * k + j) / 8) 0).getLsbD ((11 * k + j) % 8)

/-- R8, R121, in every configuration whose channels fill whole bytes: unpacking the packed payload of N_CH channels of
CH_BITS bits gives them back. -/
def Obligations.UnpackPackedChannels : Prop :=
  ∀ (c : Config) (ch : List Nat), ch.length = c.nCh → c.nCh * c.chBits % 8 = 0 → (∀ v ∈ ch, v < 2 ^ c.chBits) →
    ∀ (k : Nat) (h : k < ch.length), unpackChannel c (packChannels c ch) k = ch[k]

/-- R120, R122: REMAP returns `wrap16(tdiv((v - 992) * 2047, 1638) + 1024)` of each unpacked channel. -/
def Obligations.RemapEventMapsEveryChannel : Prop :=
  ∀ (p : List Byte) (s : State), p.length = 22 →
    ∃ ch : List U16,
      exec (.remap p) s = .next { s with responses := s.responses ++ [{ value := some (.channels ch) }] }
      ∧ ch.length = 16
      ∧ ∀ k (h : k < ch.length), ((ch[k].toNat : Int)
          = (Int.tdiv (((unpackChannel Config.chip p k : Int) - 992) * 2047) 1638 + 1024) % 65536)

/-- R123: nominal inputs map into 0..2047 with the ends and the middle exact, inputs below wrap to 65321..65535, inputs
above give 2048..2342, and on each side of the wrap the map rises strictly. -/
def Obligations.MapRanges : Prop :=
  ∀ v w : Nat, v ≤ 2047 → w ≤ 2047 →
    (172 ≤ v ∧ v ≤ 1811 → (mapChannel v).toNat ≤ 2047)
    ∧ (v < 172 → 65321 ≤ (mapChannel v).toNat)
    ∧ (1811 < v → 2048 ≤ (mapChannel v).toNat ∧ (mapChannel v).toNat ≤ 2342)
    ∧ (172 ≤ v ∧ v < w → (mapChannel v).toNat < (mapChannel w).toNat)
    ∧ (v < w ∧ w < 172 → (mapChannel v).toNat < (mapChannel w).toNat)
    ∧ mapChannel 172 = 0 ∧ mapChannel 992 = 1024 ∧ mapChannel 1811 = 2047
    ∧ mapChannel 0 = 65321 ∧ mapChannel 171 = 65535

/-! ### Configuration (00_scope.md section 3) -/

/-- R8, R9: a parameter set is admitted exactly when it meets every range and constraint, and is then used unchanged.
The chip has the defaults of R8, and R8's one value of each parameter that has one (log entry 7). -/
def Obligations.ConfigurationAdmittedExactly : Prop :=
  (∀ p : Params,
    ((∃ c, p.accept = some c) ↔
      128 ≤ p.cap ∧ p.cap ≤ 256 ∧ p.tmoUs < 65536 ∧ p.tmoUs < 2 ^ p.tsBits
      ∧ (∀ k : Kind, 1 ≤ p.psize k ∧ p.psize k + 4 ≤ p.cap)
      ∧ p.chBytes = p.nCh * p.chBits / 8 ∧ p.chOff + p.chBytes ≤ p.cap)
    ∧ ∀ c, p.accept = some c → c.toParams = p)
  ∧ Config.chip.cap = 128 ∧ Config.chip.addrOut = Config.chip.addrIn
  ∧ Config.chip.psLs = 10 ∧ Config.chip.psUp = 6 ∧ Config.chip.psDn = 5 ∧ Config.chip.tmoUs = 500
  ∧ Config.chip.tsBits = 16 ∧ Config.chip.crcPoly = 0xD5 ∧ Config.chip.crcSeed = 0x00
  ∧ Config.chip.nCh = 16 ∧ Config.chip.chBits = 11 ∧ Config.chip.chOff = 3 ∧ Config.chip.chBytes = 22
end

