-- ==== Sys2Proof/Laws/State.lean ====
section
/-!
SUPPORT. One lemma per field per register update, so that no proof unfolds a record update.
-/

namespace Sys2Proof.Machine

/-! ### setSt -/

@[simp] theorem State.setSt_st (v : FsmState) (s : State) : (s.setSt v).st = v := rfl
@[simp] theorem State.setSt_cnt (v : FsmState) (s : State) : (s.setSt v).cnt = s.cnt := rfl
@[simp] theorem State.setSt_rxb (v : FsmState) (s : State) : (s.setSt v).rxb = s.rxb := rfl
@[simp] theorem State.setSt_txb (v : FsmState) (s : State) : (s.setSt v).txb = s.txb := rfl
@[simp] theorem State.setSt_txLen (v : FsmState) (s : State) : (s.setSt v).txLen = s.txLen := rfl
@[simp] theorem State.setSt_lastT (v : FsmState) (s : State) : (s.setSt v).lastT = s.lastT := rfl
@[simp] theorem State.setSt_txEn (v : FsmState) (s : State) : (s.setSt v).txEn = s.txEn := rfl
@[simp] theorem State.setSt_frameRx (v : FsmState) (s : State) : (s.setSt v).frameRx = s.frameRx := rfl
@[simp] theorem State.setSt_crcOk (v : FsmState) (s : State) : (s.setSt v).crcOk = s.crcOk := rfl
@[simp] theorem State.setSt_events (v : FsmState) (s : State) : (s.setSt v).events = s.events := rfl
@[simp] theorem State.setSt_responses (v : FsmState) (s : State) : (s.setSt v).responses = s.responses := rfl

/-! ### setCnt -/

@[simp] theorem State.setCnt_st (v : Count) (s : State) : (s.setCnt v).st = s.st := rfl
@[simp] theorem State.setCnt_cnt (v : Count) (s : State) : (s.setCnt v).cnt = v := rfl
@[simp] theorem State.setCnt_rxb (v : Count) (s : State) : (s.setCnt v).rxb = s.rxb := rfl
@[simp] theorem State.setCnt_txb (v : Count) (s : State) : (s.setCnt v).txb = s.txb := rfl
@[simp] theorem State.setCnt_txLen (v : Count) (s : State) : (s.setCnt v).txLen = s.txLen := rfl
@[simp] theorem State.setCnt_lastT (v : Count) (s : State) : (s.setCnt v).lastT = s.lastT := rfl
@[simp] theorem State.setCnt_txEn (v : Count) (s : State) : (s.setCnt v).txEn = s.txEn := rfl
@[simp] theorem State.setCnt_frameRx (v : Count) (s : State) : (s.setCnt v).frameRx = s.frameRx := rfl
@[simp] theorem State.setCnt_crcOk (v : Count) (s : State) : (s.setCnt v).crcOk = s.crcOk := rfl
@[simp] theorem State.setCnt_events (v : Count) (s : State) : (s.setCnt v).events = s.events := rfl
@[simp] theorem State.setCnt_responses (v : Count) (s : State) : (s.setCnt v).responses = s.responses := rfl

/-! ### setRxb -/

@[simp] theorem State.setRxb_st (v : Memory) (s : State) : (s.setRxb v).st = s.st := rfl
@[simp] theorem State.setRxb_cnt (v : Memory) (s : State) : (s.setRxb v).cnt = s.cnt := rfl
@[simp] theorem State.setRxb_rxb (v : Memory) (s : State) : (s.setRxb v).rxb = v := rfl
@[simp] theorem State.setRxb_txb (v : Memory) (s : State) : (s.setRxb v).txb = s.txb := rfl
@[simp] theorem State.setRxb_txLen (v : Memory) (s : State) : (s.setRxb v).txLen = s.txLen := rfl
@[simp] theorem State.setRxb_lastT (v : Memory) (s : State) : (s.setRxb v).lastT = s.lastT := rfl
@[simp] theorem State.setRxb_txEn (v : Memory) (s : State) : (s.setRxb v).txEn = s.txEn := rfl
@[simp] theorem State.setRxb_frameRx (v : Memory) (s : State) : (s.setRxb v).frameRx = s.frameRx := rfl
@[simp] theorem State.setRxb_crcOk (v : Memory) (s : State) : (s.setRxb v).crcOk = s.crcOk := rfl
@[simp] theorem State.setRxb_events (v : Memory) (s : State) : (s.setRxb v).events = s.events := rfl
@[simp] theorem State.setRxb_responses (v : Memory) (s : State) : (s.setRxb v).responses = s.responses := rfl

/-! ### setTxb -/

@[simp] theorem State.setTxb_st (v : Memory) (s : State) : (s.setTxb v).st = s.st := rfl
@[simp] theorem State.setTxb_cnt (v : Memory) (s : State) : (s.setTxb v).cnt = s.cnt := rfl
@[simp] theorem State.setTxb_rxb (v : Memory) (s : State) : (s.setTxb v).rxb = s.rxb := rfl
@[simp] theorem State.setTxb_txb (v : Memory) (s : State) : (s.setTxb v).txb = v := rfl
@[simp] theorem State.setTxb_txLen (v : Memory) (s : State) : (s.setTxb v).txLen = s.txLen := rfl
@[simp] theorem State.setTxb_lastT (v : Memory) (s : State) : (s.setTxb v).lastT = s.lastT := rfl
@[simp] theorem State.setTxb_txEn (v : Memory) (s : State) : (s.setTxb v).txEn = s.txEn := rfl
@[simp] theorem State.setTxb_frameRx (v : Memory) (s : State) : (s.setTxb v).frameRx = s.frameRx := rfl
@[simp] theorem State.setTxb_crcOk (v : Memory) (s : State) : (s.setTxb v).crcOk = s.crcOk := rfl
@[simp] theorem State.setTxb_events (v : Memory) (s : State) : (s.setTxb v).events = s.events := rfl
@[simp] theorem State.setTxb_responses (v : Memory) (s : State) : (s.setTxb v).responses = s.responses := rfl

/-! ### setTxLen -/

@[simp] theorem State.setTxLen_st (v : Count) (s : State) : (s.setTxLen v).st = s.st := rfl
@[simp] theorem State.setTxLen_cnt (v : Count) (s : State) : (s.setTxLen v).cnt = s.cnt := rfl
@[simp] theorem State.setTxLen_rxb (v : Count) (s : State) : (s.setTxLen v).rxb = s.rxb := rfl
@[simp] theorem State.setTxLen_txb (v : Count) (s : State) : (s.setTxLen v).txb = s.txb := rfl
@[simp] theorem State.setTxLen_txLen (v : Count) (s : State) : (s.setTxLen v).txLen = v := rfl
@[simp] theorem State.setTxLen_lastT (v : Count) (s : State) : (s.setTxLen v).lastT = s.lastT := rfl
@[simp] theorem State.setTxLen_txEn (v : Count) (s : State) : (s.setTxLen v).txEn = s.txEn := rfl
@[simp] theorem State.setTxLen_frameRx (v : Count) (s : State) : (s.setTxLen v).frameRx = s.frameRx := rfl
@[simp] theorem State.setTxLen_crcOk (v : Count) (s : State) : (s.setTxLen v).crcOk = s.crcOk := rfl
@[simp] theorem State.setTxLen_events (v : Count) (s : State) : (s.setTxLen v).events = s.events := rfl
@[simp] theorem State.setTxLen_responses (v : Count) (s : State) : (s.setTxLen v).responses = s.responses := rfl

/-! ### setLastT -/

@[simp] theorem State.setLastT_st (v : U16) (s : State) : (s.setLastT v).st = s.st := rfl
@[simp] theorem State.setLastT_cnt (v : U16) (s : State) : (s.setLastT v).cnt = s.cnt := rfl
@[simp] theorem State.setLastT_rxb (v : U16) (s : State) : (s.setLastT v).rxb = s.rxb := rfl
@[simp] theorem State.setLastT_txb (v : U16) (s : State) : (s.setLastT v).txb = s.txb := rfl
@[simp] theorem State.setLastT_txLen (v : U16) (s : State) : (s.setLastT v).txLen = s.txLen := rfl
@[simp] theorem State.setLastT_lastT (v : U16) (s : State) : (s.setLastT v).lastT = v := rfl
@[simp] theorem State.setLastT_txEn (v : U16) (s : State) : (s.setLastT v).txEn = s.txEn := rfl
@[simp] theorem State.setLastT_frameRx (v : U16) (s : State) : (s.setLastT v).frameRx = s.frameRx := rfl
@[simp] theorem State.setLastT_crcOk (v : U16) (s : State) : (s.setLastT v).crcOk = s.crcOk := rfl
@[simp] theorem State.setLastT_events (v : U16) (s : State) : (s.setLastT v).events = s.events := rfl
@[simp] theorem State.setLastT_responses (v : U16) (s : State) : (s.setLastT v).responses = s.responses := rfl

/-! ### setTxEn -/

@[simp] theorem State.setTxEn_st (v : Bool) (s : State) : (s.setTxEn v).st = s.st := rfl
@[simp] theorem State.setTxEn_cnt (v : Bool) (s : State) : (s.setTxEn v).cnt = s.cnt := rfl
@[simp] theorem State.setTxEn_rxb (v : Bool) (s : State) : (s.setTxEn v).rxb = s.rxb := rfl
@[simp] theorem State.setTxEn_txb (v : Bool) (s : State) : (s.setTxEn v).txb = s.txb := rfl
@[simp] theorem State.setTxEn_txLen (v : Bool) (s : State) : (s.setTxEn v).txLen = s.txLen := rfl
@[simp] theorem State.setTxEn_lastT (v : Bool) (s : State) : (s.setTxEn v).lastT = s.lastT := rfl
@[simp] theorem State.setTxEn_txEn (v : Bool) (s : State) : (s.setTxEn v).txEn = v := rfl
@[simp] theorem State.setTxEn_frameRx (v : Bool) (s : State) : (s.setTxEn v).frameRx = s.frameRx := rfl
@[simp] theorem State.setTxEn_crcOk (v : Bool) (s : State) : (s.setTxEn v).crcOk = s.crcOk := rfl
@[simp] theorem State.setTxEn_events (v : Bool) (s : State) : (s.setTxEn v).events = s.events := rfl
@[simp] theorem State.setTxEn_responses (v : Bool) (s : State) : (s.setTxEn v).responses = s.responses := rfl

/-! ### setFrameRx -/

@[simp] theorem State.setFrameRx_st (v : Bool) (s : State) : (s.setFrameRx v).st = s.st := rfl
@[simp] theorem State.setFrameRx_cnt (v : Bool) (s : State) : (s.setFrameRx v).cnt = s.cnt := rfl
@[simp] theorem State.setFrameRx_rxb (v : Bool) (s : State) : (s.setFrameRx v).rxb = s.rxb := rfl
@[simp] theorem State.setFrameRx_txb (v : Bool) (s : State) : (s.setFrameRx v).txb = s.txb := rfl
@[simp] theorem State.setFrameRx_txLen (v : Bool) (s : State) : (s.setFrameRx v).txLen = s.txLen := rfl
@[simp] theorem State.setFrameRx_lastT (v : Bool) (s : State) : (s.setFrameRx v).lastT = s.lastT := rfl
@[simp] theorem State.setFrameRx_txEn (v : Bool) (s : State) : (s.setFrameRx v).txEn = s.txEn := rfl
@[simp] theorem State.setFrameRx_frameRx (v : Bool) (s : State) : (s.setFrameRx v).frameRx = v := rfl
@[simp] theorem State.setFrameRx_crcOk (v : Bool) (s : State) : (s.setFrameRx v).crcOk = s.crcOk := rfl
@[simp] theorem State.setFrameRx_events (v : Bool) (s : State) : (s.setFrameRx v).events = s.events := rfl
@[simp] theorem State.setFrameRx_responses (v : Bool) (s : State) : (s.setFrameRx v).responses = s.responses := rfl

/-! ### setCrcOk -/

@[simp] theorem State.setCrcOk_st (v : Bool) (s : State) : (s.setCrcOk v).st = s.st := rfl
@[simp] theorem State.setCrcOk_cnt (v : Bool) (s : State) : (s.setCrcOk v).cnt = s.cnt := rfl
@[simp] theorem State.setCrcOk_rxb (v : Bool) (s : State) : (s.setCrcOk v).rxb = s.rxb := rfl
@[simp] theorem State.setCrcOk_txb (v : Bool) (s : State) : (s.setCrcOk v).txb = s.txb := rfl
@[simp] theorem State.setCrcOk_txLen (v : Bool) (s : State) : (s.setCrcOk v).txLen = s.txLen := rfl
@[simp] theorem State.setCrcOk_lastT (v : Bool) (s : State) : (s.setCrcOk v).lastT = s.lastT := rfl
@[simp] theorem State.setCrcOk_txEn (v : Bool) (s : State) : (s.setCrcOk v).txEn = s.txEn := rfl
@[simp] theorem State.setCrcOk_frameRx (v : Bool) (s : State) : (s.setCrcOk v).frameRx = s.frameRx := rfl
@[simp] theorem State.setCrcOk_crcOk (v : Bool) (s : State) : (s.setCrcOk v).crcOk = v := rfl
@[simp] theorem State.setCrcOk_events (v : Bool) (s : State) : (s.setCrcOk v).events = s.events := rfl
@[simp] theorem State.setCrcOk_responses (v : Bool) (s : State) : (s.setCrcOk v).responses = s.responses := rfl

/-! ### setEvents -/

@[simp] theorem State.setEvents_st (v : List Event) (s : State) : (s.setEvents v).st = s.st := rfl
@[simp] theorem State.setEvents_cnt (v : List Event) (s : State) : (s.setEvents v).cnt = s.cnt := rfl
@[simp] theorem State.setEvents_rxb (v : List Event) (s : State) : (s.setEvents v).rxb = s.rxb := rfl
@[simp] theorem State.setEvents_txb (v : List Event) (s : State) : (s.setEvents v).txb = s.txb := rfl
@[simp] theorem State.setEvents_txLen (v : List Event) (s : State) : (s.setEvents v).txLen = s.txLen := rfl
@[simp] theorem State.setEvents_lastT (v : List Event) (s : State) : (s.setEvents v).lastT = s.lastT := rfl
@[simp] theorem State.setEvents_txEn (v : List Event) (s : State) : (s.setEvents v).txEn = s.txEn := rfl
@[simp] theorem State.setEvents_frameRx (v : List Event) (s : State) : (s.setEvents v).frameRx = s.frameRx := rfl
@[simp] theorem State.setEvents_crcOk (v : List Event) (s : State) : (s.setEvents v).crcOk = s.crcOk := rfl
@[simp] theorem State.setEvents_events (v : List Event) (s : State) : (s.setEvents v).events = v := rfl
@[simp] theorem State.setEvents_responses (v : List Event) (s : State) : (s.setEvents v).responses = s.responses := rfl

/-! ### respond -/

@[simp] theorem State.respond_st (r : Response) (s : State) : (s.respond r).st = s.st := rfl
@[simp] theorem State.respond_cnt (r : Response) (s : State) : (s.respond r).cnt = s.cnt := rfl
@[simp] theorem State.respond_rxb (r : Response) (s : State) : (s.respond r).rxb = s.rxb := rfl
@[simp] theorem State.respond_txb (r : Response) (s : State) : (s.respond r).txb = s.txb := rfl
@[simp] theorem State.respond_txLen (r : Response) (s : State) : (s.respond r).txLen = s.txLen := rfl
@[simp] theorem State.respond_lastT (r : Response) (s : State) : (s.respond r).lastT = s.lastT := rfl
@[simp] theorem State.respond_txEn (r : Response) (s : State) : (s.respond r).txEn = s.txEn := rfl
@[simp] theorem State.respond_frameRx (r : Response) (s : State) : (s.respond r).frameRx = s.frameRx := rfl
@[simp] theorem State.respond_crcOk (r : Response) (s : State) : (s.respond r).crcOk = s.crcOk := rfl
@[simp] theorem State.respond_events (r : Response) (s : State) : (s.respond r).events = s.events := rfl
@[simp] theorem State.respond_responses (r : Response) (s : State) : (s.respond r).responses = s.responses ++ [r] := rfl

/-! ### pushRxb -/

@[simp] theorem State.pushRxb_st (c : Config) (b : Byte) (s : State) : (s.pushRxb c b).st = s.st := rfl
@[simp] theorem State.pushRxb_cnt (c : Config) (b : Byte) (s : State) : (s.pushRxb c b).cnt = s.cnt + 1 := rfl
@[simp] theorem State.pushRxb_rxb (c : Config) (b : Byte) (s : State) : (s.pushRxb c b).rxb = s.rxb.store c.cap s.cnt.toNat b := rfl
@[simp] theorem State.pushRxb_txb (c : Config) (b : Byte) (s : State) : (s.pushRxb c b).txb = s.txb := rfl
@[simp] theorem State.pushRxb_txLen (c : Config) (b : Byte) (s : State) : (s.pushRxb c b).txLen = s.txLen := rfl
@[simp] theorem State.pushRxb_lastT (c : Config) (b : Byte) (s : State) : (s.pushRxb c b).lastT = s.lastT := rfl
@[simp] theorem State.pushRxb_txEn (c : Config) (b : Byte) (s : State) : (s.pushRxb c b).txEn = s.txEn := rfl
@[simp] theorem State.pushRxb_frameRx (c : Config) (b : Byte) (s : State) : (s.pushRxb c b).frameRx = s.frameRx := rfl
@[simp] theorem State.pushRxb_crcOk (c : Config) (b : Byte) (s : State) : (s.pushRxb c b).crcOk = s.crcOk := rfl
@[simp] theorem State.pushRxb_events (c : Config) (b : Byte) (s : State) : (s.pushRxb c b).events = s.events := rfl
@[simp] theorem State.pushRxb_responses (c : Config) (b : Byte) (s : State) : (s.pushRxb c b).responses = s.responses := rfl

/-! ### Reset -/

@[simp] theorem State.reset_st : State.reset.st = .idle := rfl
@[simp] theorem State.reset_cnt : State.reset.cnt = 0 := rfl
@[simp] theorem State.reset_rxb : State.reset.rxb = [] := rfl
@[simp] theorem State.reset_txb : State.reset.txb = [] := rfl
@[simp] theorem State.reset_txLen : State.reset.txLen = 0 := rfl
@[simp] theorem State.reset_lastT : State.reset.lastT = 0 := rfl
@[simp] theorem State.reset_txEn : State.reset.txEn = false := rfl
@[simp] theorem State.reset_frameRx : State.reset.frameRx = false := rfl
@[simp] theorem State.reset_crcOk : State.reset.crcOk = false := rfl
@[simp] theorem State.reset_events : State.reset.events = [] := rfl
@[simp] theorem State.reset_responses : State.reset.responses = [] := rfl

/-! ### An event in progress -/

@[simp] theorem Work.begin_s (s : State) : (Work.begin s).s = s := rfl
@[simp] theorem Work.begin_r (s : State) : (Work.begin s).r = {} := rfl
@[simp] theorem Work.upd_s (f : State → State) (w : Work) : (w.upd f).s = f w.s := rfl
@[simp] theorem Work.upd_r (f : State → State) (w : Work) : (w.upd f).r = w.r := rfl
@[simp] theorem Work.flag_s (d : Byte) (w : Work) : (w.flag d).s = w.s := rfl
@[simp] theorem Work.flag_r (d : Byte) (w : Work) : (w.flag d).r = { w.r with diag := w.r.diag ||| d } := rfl
@[simp] theorem Work.emitChannels_s (ch : List U16) (w : Work) : (w.emitChannels ch).s = w.s := rfl
@[simp] theorem Work.emitChannels_r (ch : List U16) (w : Work) :
    (w.emitChannels ch).r = { w.r with chan := some ch } := rfl
@[simp] theorem Work.emitStart_s (f : List Byte) (w : Work) : (w.emitStart f).s = w.s := rfl
@[simp] theorem Work.emitStart_r (f : List Byte) (w : Work) :
    (w.emitStart f).r = { w.r with dec := .start, burst := f } := rfl

end Sys2Proof.Machine
end

