-- ==== Sys2Proof/Laws/Codec.lean ====
section
/-!
SUPPORT. The codec functions and the events over them, one lemma each, so that no proof unfolds them.
-/

namespace Sys2Proof.Machine

theorem crcFrom_append (c : Config) (x : Byte) (p q : List Byte) :
    crcFrom c x (p ++ q) = crcFrom c (crcFrom c x p) q := by
  induction p generalizing x with
  | nil => rfl
  | cons b p ih => exact ih _

/-- A frame is four bytes longer than its payload (R56, R114). -/
@[simp] theorem length_buildFrame (c : Config) (k : Kind) (p : List Byte) :
    (buildFrame c k p).length = p.length + 4 := by
  simp [buildFrame]

/-- A built frame fits in TXB (R9). -/
theorem psize_le (c : Config) (k : Kind) : 1 ≤ c.psize k ∧ c.psize k + 4 ≤ c.cap := by
  cases k
  · exact c.ok.2.1
  · exact c.ok.2.2.1
  · exact c.ok.2.2.2.1

@[simp] theorem length_remapChannels (c : Config) (p : List Byte) : (remapChannels c p).length = c.nCh := by
  simp [remapChannels]

@[simp] theorem getElem_remapChannels (c : Config) (p : List Byte) (k : Nat) (h : k < (remapChannels c p).length) :
    (remapChannels c p)[k] = mapChannel (unpackChannel c p k) := by
  simp [remapChannels]

/-- A channel is a value of CH_BITS bits (R121). -/
theorem unpackChannel_lt (c : Config) (p : List Byte) (k : Nat) : unpackChannel c p k < 2 ^ c.chBits :=
  Nat.mod_lt _ (Nat.two_pow_pos _)

/-- The operation runs where the operand string has its length. -/
theorem withOperand_ok {ok : Bool} {s : State} {run : State → State} (h : ok = true) :
    withOperand ok s run = run s := if_pos h

/-- Elsewhere it is a reserved event. -/
theorem withOperand_reserved {ok : Bool} {s : State} {run : State → State} (h : ok = false) :
    withOperand ok s run = reservedEvent s := if_neg (by simp [h])

@[simp] theorem returnValue_eq (v : Value) (s : State) :
    returnValue v s = s.respond { value := some v } := rfl

theorem reservedEvent_eq (s : State) : reservedEvent s = s.respond { diag := diagReservedEvent } := rfl

/-- An enqueue with a frame pending is dropped (R130). -/
theorem enqueue_pending {c : Config} {k : Kind} {p : List Byte} {s : State} (h : s.txLen ≠ 0) :
    enqueue c k p s = s.respond { ack := false, diag := diagEnqDropped } := if_pos h

/-- An enqueue on an empty queue writes the built frame (R130). -/
theorem enqueue_empty {c : Config} {k : Kind} {p : List Byte} {s : State} (h : s.txLen = 0) :
    enqueue c k p s = ((s.setTxb (s.txb.writeRange 0 (buildFrame c k p))).setTxLen
      (BitVec.ofNat 9 (buildFrame c k p).length)).respond { ack := true } := if_neg (by simp [h])

/-- RDREG answers a value and changes nothing (R96). -/
theorem rdreg_eq (c : Config) (r : U16) (s : State) :
    rdreg c r s = s.respond { value := some (.register ((regRead c r s).getD 0)),
                              diag := if (regRead c r s).isSome then 0 else diagReservedEvent } := by
  unfold rdreg
  split <;> simp [*]

end Sys2Proof.Machine
end

