-- ==== Sys2Proof/Laws/Decode.lean ====
section
/-!
SUPPORT. What it takes for a word to match a row, in terms of the fields of the word, and the row of an encoded instruction.
-/

namespace Sys2Proof

theorem and_mask8 (w : EventWord) (p : BitVec 8) :
    (w &&& 0xFF000000#32) = p ++ 0#24 ↔ w.extractLsb' 24 8 = p := by
  have hw : w = w.extractLsb' 24 8 ++ w.extractLsb' 0 24 :=
    (BitVec.extractLsb'_append_extractLsb' (w := 8) (len := 24) (x := w)).symm
  have hm : (0xFF000000#32) = BitVec.allOnes 8 ++ 0#24 := by decide
  conv_lhs => rw [hw, hm, BitVec.and_append, BitVec.and_allOnes, BitVec.and_zero]
  constructor
  · intro h
    have := congrArg (BitVec.extractLsb' 24 8) h
    rwa [BitVec.extractLsb'_append_eq_left, BitVec.extractLsb'_append_eq_left] at this
  · intro h
    rw [h]

theorem and_mask16 (w : EventWord) (p : BitVec 16) :
    (w &&& 0xFFFF0000#32) = p ++ 0#16 ↔ w.extractLsb' 16 16 = p := by
  have hw : w = w.extractLsb' 16 16 ++ w.extractLsb' 0 16 :=
    (BitVec.extractLsb'_append_extractLsb' (w := 16) (len := 16) (x := w)).symm
  have hm : (0xFFFF0000#32) = BitVec.allOnes 16 ++ 0#16 := by decide
  conv_lhs => rw [hw, hm, BitVec.and_append, BitVec.and_allOnes, BitVec.and_zero]
  constructor
  · intro h
    have := congrArg (BitVec.extractLsb' 16 16) h
    rwa [BitVec.extractLsb'_append_eq_left, BitVec.extractLsb'_append_eq_left] at this
  · intro h
    rw [h]

theorem and_mask23 (w : EventWord) (p : BitVec 23) :
    (w &&& 0xFFFFFE00#32) = p ++ 0#9 ↔ w.extractLsb' 9 23 = p := by
  have hw : w = w.extractLsb' 9 23 ++ w.extractLsb' 0 9 :=
    (BitVec.extractLsb'_append_extractLsb' (w := 23) (len := 9) (x := w)).symm
  have hm : (0xFFFFFE00#32) = BitVec.allOnes 23 ++ 0#9 := by decide
  conv_lhs => rw [hw, hm, BitVec.and_append, BitVec.and_allOnes, BitVec.and_zero]
  constructor
  · intro h
    have := congrArg (BitVec.extractLsb' 9 23) h
    rwa [BitVec.extractLsb'_append_eq_left, BitVec.extractLsb'_append_eq_left] at this
  · intro h
    rw [h]

/-- RX_BYTE: `OP` and `SUB` are fixed, the rest is free. -/
theorem fits_rxByte (w : EventWord) : Row.fits .rxByte w = true ↔ w.extractLsb' 24 8 = 0x10#8 := by
  rw [← and_mask8]
  exact beq_iff_eq

/-- RDREG: the upper half of the word is fixed. -/
theorem fits_rdreg (w : EventWord) : Row.fits .rdreg w = true ↔ w.extractLsb' 16 16 = 0x5000#16 := by
  rw [← and_mask16]
  exact beq_iff_eq

/-- CRC8: everything but `N` is fixed. -/
theorem fits_crc8 (w : EventWord) : Row.fits .crc8 w = true ↔ w.extractLsb' 9 23 = 0x400000#23 := by
  rw [← and_mask23]
  exact beq_iff_eq

/-- CLASSIFY: everything but `N` is fixed. -/
theorem fits_classify (w : EventWord) : Row.fits .classify w = true ↔ w.extractLsb' 9 23 = 0x500000#23 := by
  rw [← and_mask23]
  exact beq_iff_eq

/-- A row without fields in its word matches its pattern alone. -/
theorem fits_whole (r : Row) (h : r.mask = BitVec.allOnes 32) (w : EventWord) :
    r.fits w = true ↔ w = r.pattern := by
  rw [Row.fits, h, BitVec.and_allOnes, beq_iff_eq]

/-- Every mask covers W[31:24], so a matching row has the word's `OP` and `SUB` (R68). -/
theorem fits_top (r : Row) (w : EventWord) (h : r.fits w = true) :
    w.extractLsb' 24 8 = r.pattern.extractLsb' 24 8 := by
  have h := congrArg (BitVec.extractLsb' 24 8) (beq_iff_eq.1 h)
  rw [BitVec.extractLsb'_and] at h
  have hm : r.mask.extractLsb' 24 8 = BitVec.allOnes 8 := by cases r <;> decide
  rwa [hm, BitVec.and_allOnes] at h

/-! ### Fields of a word put together from fields -/

/-- `B` of an RX_BYTE word. -/
theorem fieldB_rxByte (b : Byte) (t : U16) : fieldB (0x10#8 ++ b ++ t) = b := by
  have h : 0x10#8 ++ b ++ t = 0x10#8 ++ (b ++ t) := BitVec.append_assoc
  have hs : fieldB (0x10#8 ++ (b ++ t)) = (b ++ t).extractLsb' 16 8 :=
    BitVec.extractLsb'_append_eq_of_add_le (by decide)
  rw [h, hs]
  exact BitVec.extractLsb'_append_eq_left

/-- `T` or `R`: the lower half of a word. -/
theorem fieldT_append (x : BitVec 16) (t : U16) : fieldT (x ++ t) = t :=
  BitVec.extractLsb'_append_eq_right

/-- `N`: the low nine bits of a word. -/
theorem fieldN_append (x : BitVec 23) (n : Count) : fieldN (x ++ n) = n :=
  BitVec.extractLsb'_append_eq_right

/-- A word is its upper half and `T`. -/
theorem word_of_fieldT (w : EventWord) : w.extractLsb' 16 16 ++ fieldT w = w :=
  BitVec.extractLsb'_append_extractLsb' (w := 16) (len := 16) (x := w)

/-- A word is its upper 23 bits and `N`. -/
theorem word_of_fieldN (w : EventWord) : w.extractLsb' 9 23 ++ fieldN w = w :=
  BitVec.extractLsb'_append_extractLsb' (w := 23) (len := 9) (x := w)

/-- A word is its `OP` and `SUB`, `B` and `T`. -/
theorem word_of_fieldB (w : EventWord) : w.extractLsb' 24 8 ++ fieldB w ++ fieldT w = w := by
  have h : w.extractLsb' 24 8 ++ fieldB w = w.extractLsb' 16 16 :=
    BitVec.extractLsb'_append_extractLsb'_eq_extractLsb' (by decide)
  rw [h]
  exact word_of_fieldT w

/-- If only one row can match a word, `rowOf` finds it. -/
theorem rowOf_of_fits {r : Row} {w : EventWord} (h : r.fits w = true)
    (only : ∀ q : Row, q.fits w = true → q = r) : rowOf w = some r := by
  unfold rowOf
  cases hf : Row.all.find? fun q => q.fits w with
  | none =>
    exact absurd h (List.find?_eq_none.1 hf r (by cases r <;> decide))
  | some q => rw [only q (List.find?_some (p := fun q : Row => q.fits w) hf)]

/-- The row `rowOf` finds matches. -/
theorem rowOf_some {r : Row} {w : EventWord} (h : rowOf w = some r) : r.fits w = true :=
  List.find?_some (p := fun q : Row => q.fits w) h

/-- Where `rowOf` finds none, none matches. -/
theorem rowOf_none {w : EventWord} (h : rowOf w = none) (r : Row) : r.fits w = false := by
  have := List.find?_eq_none.1 h r (by cases r <;> decide)
  simpa using this

/-- The row an instruction belongs to (R65). -/
def Instr.row : Instr → Row
  | .rxByte _ _ => .rxByte
  | .txDone     => .txDone
  | .enqLs _    => .enqLs
  | .enqUp _    => .enqUp
  | .enqDn _    => .enqDn
  | .qpend      => .qpend
  | .rdreg _    => .rdreg
  | .crc8 _     => .crc8
  | .buildLs _  => .buildLs
  | .buildUp _  => .buildUp
  | .buildDn _  => .buildDn
  | .classify _ => .classify
  | .remap _    => .remap
  | .reset      => .reset

end Sys2Proof
end

