-- ==== Sys2Proof/Laws/Memory.lean ====
section
/-!
SUPPORT. The laws of the buffers: read after write, frames, the canonical form and the bound kept by every operation.
-/

namespace Sys2Proof.Machine

theorem Memory.wf_iff (m : Memory) :
    m.wf = true ↔ m.Pairwise (fun x y => x.1 < y.1) ∧ ∀ x ∈ m, x.2 ≠ Memory.blank := by
  rw [Memory.wf, decide_eq_true_iff]

theorem Memory.within_iff (m : Memory) (cap : Nat) : m.within cap = true ↔ ∀ x ∈ m, x.1 < cap := by
  simp [Memory.within]

@[simp] theorem Memory.read_nil (a : Nat) : Memory.read [] a = Memory.blank := rfl

theorem Memory.read_erase (m : Memory) (a b : Nat) :
    Memory.read (Memory.erase m a) b = if b = a then Memory.blank else m.read b := by
  induction m with
  | nil => simp [Memory.erase]
  | cons x m ih =>
    obtain ⟨k, v⟩ := x
    simp only [Memory.erase] at ih ⊢
    by_cases hk : k = a
    · subst hk
      rw [List.filter_cons_of_neg (by simp), ih]
      by_cases hb : b = k
      · simp [hb]
      · simp [hb, Memory.read, Ne.symm hb]
    · rw [List.filter_cons_of_pos (by simpa using hk)]
      by_cases hb : k = b
      · subst hb
        simp [Memory.read, hk]
      · simp [Memory.read, hb, ih]

theorem Memory.read_insert (m : Memory) (a : Nat) (v : Byte) (b : Nat) (h : ∀ x ∈ m, x.1 ≠ a) :
    Memory.read (Memory.insert m a v) b = if b = a then v else m.read b := by
  induction m with
  | nil =>
    by_cases hb : b = a
    · simp [Memory.insert, Memory.read, hb]
    · simp [Memory.insert, Memory.read, hb, Ne.symm hb]
  | cons x m ih =>
    obtain ⟨k, y⟩ := x
    have hk : k ≠ a := h (k, y) (by simp)
    have ih := ih fun x hx => h x (by simp [hx])
    by_cases hlt : a < k
    · by_cases hb : b = a
      · simp [Memory.insert, hlt, Memory.read, hb]
      · simp [Memory.insert, hlt, Memory.read, hb, Ne.symm hb]
    · by_cases hb : k = b
      · subst hb
        simp [Memory.insert, hlt, Memory.read, hk]
      · simp [Memory.insert, hlt, Memory.read, hb, ih]

theorem Memory.mem_erase {m : Memory} {a : Nat} {x : Host.Cell} (h : x ∈ m.erase a) : x ∈ m ∧ x.1 ≠ a := by
  simpa [Memory.erase] using h

theorem Memory.mem_insert {m : Memory} {a : Nat} {v : Byte} {x : Host.Cell} (h : x ∈ m.insert a v) :
    x = (a, v) ∨ x ∈ m := by
  induction m with
  | nil => simpa [Memory.insert] using h
  | cons y m ih =>
    unfold Memory.insert at h
    split at h
    · simpa using h
    · rcases List.mem_cons.1 h with rfl | h
      · simp
      · rcases ih h with h | h <;> simp [h]

/-- Reading byte `b` after writing byte `a`: every byte but `a` is as before. -/
@[simp] theorem Memory.read_write (m : Memory) (a : Nat) (v : Byte) (b : Nat) :
    Memory.read (Memory.write m a v) b = if b = a then v else m.read b := by
  unfold Memory.write
  split
  · next h => rw [Memory.read_erase, h]
  · rw [Memory.read_insert _ _ _ _ fun x hx => (Memory.mem_erase hx).2, Memory.read_erase]
    split <;> rfl

/-- What a buffer lists after a write: the written entry, or an entry it listed before. -/
theorem Memory.mem_write {m : Memory} {a : Nat} {v : Byte} {x : Host.Cell} (h : x ∈ m.write a v) :
    (x = (a, v) ∧ v ≠ Memory.blank) ∨ (x ∈ m ∧ x.1 ≠ a) := by
  unfold Memory.write at h
  split at h
  · exact .inr (Memory.mem_erase h)
  · next hv =>
    rcases Memory.mem_insert h with h | h
    · exact .inl ⟨h, hv⟩
    · exact .inr (Memory.mem_erase h)

theorem Memory.sorted_insert {m : Memory} {a : Nat} {v : Byte}
    (h : m.Pairwise fun x y => x.1 < y.1) (ha : ∀ x ∈ m, x.1 ≠ a) :
    (m.insert a v).Pairwise fun x y => x.1 < y.1 := by
  induction m with
  | nil => simp [Memory.insert]
  | cons y m ih =>
    obtain ⟨hy, hm⟩ := List.pairwise_cons.1 h
    have hne : y.1 ≠ a := ha y (by simp)
    unfold Memory.insert
    split
    · next hlt =>
      refine List.pairwise_cons.2 ⟨fun x hx => ?_, h⟩
      rcases List.mem_cons.1 hx with rfl | hx
      · exact hlt
      · exact Nat.lt_trans hlt (hy x hx)
    · next hlt =>
      refine List.pairwise_cons.2 ⟨fun x hx => ?_, ih hm fun x hx => ha x (by simp [hx])⟩
      rcases Memory.mem_insert hx with rfl | hx
      · exact Nat.lt_of_le_of_ne (Nat.le_of_not_lt hlt) hne
      · exact hy x hx

/-- A write keeps the canonical form. -/
theorem Memory.wf_write {m : Memory} (h : m.wf = true) (a : Nat) (v : Byte) : (m.write a v).wf = true := by
  rw [Memory.wf_iff] at h ⊢
  refine ⟨?_, fun x hx => ?_⟩
  · have he : (m.erase a).Pairwise fun x y => x.1 < y.1 := h.1.filter _
    unfold Memory.write
    split
    · exact he
    · exact Memory.sorted_insert he fun x hx => (Memory.mem_erase hx).2
  · rcases Memory.mem_write hx with ⟨rfl, hv⟩ | ⟨hx, -⟩
    · exact hv
    · exact h.2 x hx

/-- A write inside the buffer keeps its bound. -/
theorem Memory.within_write {m : Memory} {cap : Nat} (h : m.within cap = true) {a : Nat} (ha : a < cap)
    (v : Byte) : (m.write a v).within cap = true := by
  rw [Memory.within_iff] at h ⊢
  intro x hx
  rcases Memory.mem_write hx with ⟨rfl, -⟩ | ⟨hx, -⟩
  · exact ha
  · exact h x hx

theorem Memory.wf_writeRange {m : Memory} (h : m.wf = true) (a : Nat) (f : List Byte) :
    (m.writeRange a f).wf = true := by
  induction f generalizing m a with
  | nil => exact h
  | cons b f ih => exact ih (Memory.wf_write h a b) (a + 1)

theorem Memory.within_writeRange {m : Memory} {cap : Nat} (h : m.within cap = true) {a : Nat} {f : List Byte}
    (ha : a + f.length ≤ cap) : (m.writeRange a f).within cap = true := by
  induction f generalizing m a with
  | nil => exact h
  | cons b f ih =>
    simp only [List.length_cons] at ha
    exact ih (Memory.within_write h (by omega) b) (by omega)

theorem Memory.wf_reset_rxb : State.reset.rxb.wf = true := by decide
theorem Memory.wf_reset_txb : State.reset.txb.wf = true := by decide

/-- Reading byte `b` after writing a byte string at `a`: inside the string its byte, outside it as before. -/
theorem Memory.read_writeRange (m : Memory) (a : Nat) (f : List Byte) (b : Nat) :
    Memory.read (m.writeRange a f) b = if h : a ≤ b ∧ b < a + f.length then f[b - a] else m.read b := by
  induction f generalizing m a with
  | nil => simp [Memory.writeRange]
  | cons x f ih =>
    rw [Memory.writeRange, ih, Memory.read_write]
    by_cases hb : b = a
    · subst hb
      simp
    · by_cases h : a + 1 ≤ b ∧ b < a + 1 + f.length
      · have h' : a ≤ b ∧ b < a + (x :: f).length := by simp only [List.length_cons]; omega
        rw [dif_pos h, dif_pos h', List.getElem_cons]
        have : b - a ≠ 0 := by omega
        simp [this, Nat.sub_add_eq]
      · have h' : ¬(a ≤ b ∧ b < a + (x :: f).length) := by simp only [List.length_cons]; omega
        rw [dif_neg h, dif_neg h', if_neg hb]

@[simp] theorem Memory.length_readRange (m : Memory) (a n : Nat) : (m.readRange a n).length = n := by
  induction n generalizing a with
  | zero => rfl
  | succ n ih => simp [Memory.readRange, ih]

@[simp] theorem Memory.getElem_readRange (m : Memory) (a n i : Nat) (h : i < (m.readRange a n).length) :
    (m.readRange a n)[i] = m.read (a + i) := by
  induction n generalizing a i with
  | zero => simp [Memory.readRange] at h
  | succ n ih =>
    cases i with
    | zero => simp [Memory.readRange]
    | succ i =>
      simp only [Memory.readRange, List.getElem_cons_succ]
      rw [ih, Nat.add_assoc, Nat.add_comm 1 i]

/-- Two buffers that agree on a range give the same bytes for it. -/
theorem Memory.readRange_congr {m m' : Memory} {a n : Nat} (h : ∀ i < n, m.read (a + i) = m'.read (a + i)) :
    m.readRange a n = m'.readRange a n :=
  List.ext_getElem (by simp) fun i hi _ => by simpa using h i (by simpa using hi)

/-- Reading back a written byte string. -/
theorem Memory.readRange_writeRange (m : Memory) (a : Nat) (f : List Byte) :
    (m.writeRange a f).readRange a f.length = f :=
  List.ext_getElem (by simp) fun i hi _ => by
    rw [Memory.getElem_readRange, Memory.read_writeRange]
    simp only [Memory.length_readRange] at hi
    rw [dif_pos (by omega)]
    simp

/-! ### Bounded accesses (R24, R25) -/

/-- A store inside the buffer is a write. -/
theorem Memory.store_lt {cap a : Nat} (h : a < cap) (m : Memory) (v : Byte) : m.store cap a v = m.write a v := if_pos h

/-- A store at an index the buffer does not have changes nothing. -/
theorem Memory.store_ge {cap a : Nat} (h : cap ≤ a) (m : Memory) (v : Byte) : m.store cap a v = m :=
  if_neg (Nat.not_lt.2 h)

/-- All a store can do to a byte. -/
@[simp] theorem Memory.read_store (cap : Nat) (m : Memory) (a : Nat) (v : Byte) (b : Nat) :
    (m.store cap a v).read b = if b = a ∧ a < cap then v else m.read b := by
  unfold Memory.store
  split
  · next h => simp [h]
  · next h => simp [h]

/-- A store keeps the canonical form. -/
theorem Memory.wf_store {m : Memory} (h : m.wf = true) (cap a : Nat) (v : Byte) : (m.store cap a v).wf = true := by
  unfold Memory.store
  split
  · exact Memory.wf_write h a v
  · exact h

/-- A store keeps the buffer's bound, whatever the index. -/
theorem Memory.within_store {m : Memory} {cap : Nat} (h : m.within cap = true) (a : Nat) (v : Byte) :
    (m.store cap a v).within cap = true := by
  unfold Memory.store
  split
  · next ha => exact Memory.within_write h ha v
  · exact h

@[simp] theorem Memory.length_load (cap : Nat) (m : Memory) (a n : Nat) : (m.load cap a n).length = n := by
  induction n generalizing a with
  | zero => rfl
  | succ n ih => simp [Memory.load, ih]

/-- All a bounded read can give: the bytes the buffer has, and free values beyond it. -/
theorem Memory.getElem_load (cap : Nat) (m : Memory) (a n i : Nat) (h : i < (m.load cap a n).length) :
    (m.load cap a n)[i] = if a + i < cap then m.read (a + i) else Config.absentByte (a + i) := by
  induction n generalizing a i with
  | zero => simp [Memory.load] at h
  | succ n ih =>
    cases i with
    | zero => simp [Memory.load]
    | succ i =>
      simp only [Memory.load, List.getElem_cons_succ]
      rw [ih, Nat.add_assoc, Nat.add_comm 1 i]

/-- Inside the buffer a bounded read is a read. -/
theorem Memory.load_eq {cap : Nat} {m : Memory} {a n : Nat} (h : a + n ≤ cap) : m.load cap a n = m.readRange a n :=
  List.ext_getElem (by simp) fun i hi _ => by
    rw [Memory.length_load] at hi
    rw [Memory.getElem_load, Memory.getElem_readRange, if_pos (by omega)]

/-! ### The length byte and the cursor -/

@[simp] theorem State.setSt_rxL (v : FsmState) (s : State) : (s.setSt v).rxL = s.rxL := rfl
@[simp] theorem State.setCnt_rxL (v : Count) (s : State) : (s.setCnt v).rxL = s.rxL := rfl
@[simp] theorem State.setTxb_rxL (v : Memory) (s : State) : (s.setTxb v).rxL = s.rxL := rfl
@[simp] theorem State.setTxLen_rxL (v : Count) (s : State) : (s.setTxLen v).rxL = s.rxL := rfl
@[simp] theorem State.setLastT_rxL (v : U16) (s : State) : (s.setLastT v).rxL = s.rxL := rfl
@[simp] theorem State.setTxEn_rxL (v : Bool) (s : State) : (s.setTxEn v).rxL = s.rxL := rfl
@[simp] theorem State.setFrameRx_rxL (v : Bool) (s : State) : (s.setFrameRx v).rxL = s.rxL := rfl
@[simp] theorem State.setCrcOk_rxL (v : Bool) (s : State) : (s.setCrcOk v).rxL = s.rxL := rfl
@[simp] theorem State.setEvents_rxL (v : List Event) (s : State) : (s.setEvents v).rxL = s.rxL := rfl
@[simp] theorem State.respond_rxL (r : Response) (s : State) : (s.respond r).rxL = s.rxL := rfl

/-- Storing any byte but the length byte leaves `L` alone. -/
theorem State.pushRxb_rxL {c : Config} {b : Byte} {s : State} (h : s.cnt.toNat ≠ 1) : (s.pushRxb c b).rxL = s.rxL := by
  rw [State.rxL, State.pushRxb_rxb, Memory.read_store, if_neg (fun e => h e.1.symm), State.rxL]

/-- Storing the length byte sets `L`. -/
theorem State.pushRxb_rxL_length {c : Config} {b : Byte} {s : State} (h : s.cnt.toNat = 1) :
    (s.pushRxb c b).rxL = b.toNat := by
  have := c.ok.1.1
  rw [State.rxL, State.pushRxb_rxb, Memory.read_store, if_pos ⟨h.symm, by omega⟩]

/-- Inside a buffer the cursor counts without wrapping. -/
theorem count_succ {c : Config} {x : Count} (h : x.toNat < c.cap) : (x + 1).toNat = x.toNat + 1 := by
  have := c.ok.1.2
  rw [BitVec.toNat_add, show (1 : Count).toNat = 1 from rfl, Nat.mod_eq_of_lt (by omega)]

end Sys2Proof.Machine
end

