-- ==== Sys2Proof/Laws/PerInstr.lean ====
section
/-!
SUPPORT. Statements made instruction by instruction, about the instruction as syntax.
-/

/-- The word an instruction is encoded to matches the row of the opcode map it belongs to (R65). -/
def Sys2Proof.Laws.EncodeRow.Statement (i : Sys2Proof.Instr) : Prop :=
  i.row.fits (Sys2Proof.encode i).word = true

namespace Sys2Proof.Laws.EncodeRow

theorem rxByte (b : Byte) (t : U16) : Statement (.rxByte b t) := by
  have h : 0x10#8 ++ b ++ t = 0x10#8 ++ (b ++ t) := BitVec.append_assoc
  exact (fits_rxByte _).2 (by rw [encode, h]; exact BitVec.extractLsb'_append_eq_left)

theorem txDone : Statement .txDone := (fits_whole .txDone (by decide) _).2 rfl

theorem enqLs (p : List Byte) : Statement (.enqLs p) := (fits_whole .enqLs (by decide) _).2 rfl

theorem enqUp (p : List Byte) : Statement (.enqUp p) := (fits_whole .enqUp (by decide) _).2 rfl

theorem enqDn (p : List Byte) : Statement (.enqDn p) := (fits_whole .enqDn (by decide) _).2 rfl

theorem qpend : Statement .qpend := (fits_whole .qpend (by decide) _).2 rfl

theorem rdreg (r : U16) : Statement (.rdreg r) :=
  (fits_rdreg _).2 BitVec.extractLsb'_append_eq_left

theorem crc8 (p : List Byte) : Statement (.crc8 p) :=
  (fits_crc8 _).2 BitVec.extractLsb'_append_eq_left

theorem buildLs (p : List Byte) : Statement (.buildLs p) := (fits_whole .buildLs (by decide) _).2 rfl

theorem buildUp (p : List Byte) : Statement (.buildUp p) := (fits_whole .buildUp (by decide) _).2 rfl

theorem buildDn (p : List Byte) : Statement (.buildDn p) := (fits_whole .buildDn (by decide) _).2 rfl

theorem classify (p : List Byte) : Statement (.classify p) :=
  (fits_classify _).2 BitVec.extractLsb'_append_eq_left

theorem remap (p : List Byte) : Statement (.remap p) := (fits_whole .remap (by decide) _).2 rfl

theorem reset : Statement .reset := (fits_whole .reset (by decide) _).2 rfl

end Sys2Proof.Laws.EncodeRow
end

