-- ==== Sys2Proof/Laws/Receive.lean ====
section
/-!
SUPPORT. What RX_BYTE does, one equation per situation, so that no proof unfolds it.
-/

namespace Sys2Proof.Machine

/-! ### The parts -/

@[simp] theorem rxTimestamp_s (t : U16) (w : Work) : (rxTimestamp t w).s = w.s.setLastT t := rfl
@[simp] theorem rxTimestamp_r (t : U16) (w : Work) : (rxTimestamp t w).r = w.r := rfl
@[simp] theorem rxIgnored_s (w : Work) : (rxIgnored w).s = w.s := rfl
@[simp] theorem rxIgnored_r (w : Work) : (rxIgnored w).r = { w.r with diag := w.r.diag ||| diagByteIgnoredTx } := rfl
@[simp] theorem startTransmission_s (f : List Byte) (w : Work) :
    (startTransmission f w).s = ((w.s.setTxEn true).setTxLen 0).setSt .transmitting := rfl
@[simp] theorem startTransmission_r (f : List Byte) (w : Work) :
    (startTransmission f w).r = { w.r with dec := .start, burst := f } := rfl

theorem timedOut_iff (c : Config) (t : U16) (s : State) :
    timedOut c t s = true ↔ s.st ≠ .idle ∧ c.tmoUs < elapsed c t s := by
  rw [timedOut, Bool.and_eq_true, decide_eq_true_iff, decide_eq_true_iff]

@[simp] theorem timedOut_idle (c : Config) (t : U16) (s : State) (h : s.st = .idle) : timedOut c t s = false := by
  simp [timedOut, h]

theorem timedOut_false (c : Config) (t : U16) (s : State) (h : elapsed c t s ≤ c.tmoUs) :
    timedOut c t s = false := by
  rw [timedOut, decide_eq_false (Nat.not_lt.2 h), Bool.and_false]

theorem legalLength_iff (c : Config) (b : Byte) :
    legalLength c b = true ↔ 2 ≤ b.toNat ∧ b.toNat ≤ c.cap - 2 := by
  simp [legalLength]

/-- Inside RXB a bounded read is a read. -/
theorem readRxb_eq {c : Config} {s : State} {a n : Nat} (h : a + n ≤ c.cap) : readRxb c s a n = s.rxb.readRange a n :=
  Memory.load_eq h

/-- Inside TXB a bounded read is a read. -/
theorem readTxb_eq {c : Config} {s : State} {a n : Nat} (h : a + n ≤ c.cap) : readTxb c s a n = s.txb.readRange a n :=
  Memory.load_eq h

@[simp] theorem length_readTxb (c : Config) (s : State) (a n : Nat) : (readTxb c s a n).length = n :=
  Memory.length_load _ _ _ _

/-- The channel region lies inside RXB in every configuration (R9). -/
theorem chRegion_le (c : Config) : c.chOff + c.chBytes ≤ c.cap := c.ok.2.2.2.2.2.1

/-! ### Step 4 (R90, R91, R92) -/

theorem turnaround_other (c : Config) (w : Work) (h : w.s.st ≠ .transmitPending) :
    turnaround c w = w := if_neg h

/-- Step 4 on a received frame with nothing queued (R91). -/
theorem turnaround_empty {c : Config} {w : Work} (h : w.s.st = .transmitPending) (hq : w.s.txLen = 0) :
    turnaround c w = w.upd (State.setSt .idle) := by
  simp [turnaround, h, hq]

/-- Step 4 on a received frame with a frame queued (R90). -/
theorem turnaround_queued {c : Config} {w : Work} (h : w.s.st = .transmitPending) (hq : w.s.txLen ≠ 0) :
    turnaround c w = startTransmission (readTxb c w.s 0 w.s.txLen.toNat) w := by
  rw [turnaround, if_pos h, if_pos hq]

theorem rxIdle_st (c : Config) (b : Byte) (w : Work) (h : w.s.st = .idle) :
    (rxIdle c b w).s.st ≠ .transmitPending := by
  unfold rxIdle
  split <;> simp [startFrame, h]

theorem checkLength_st (c : Config) (b : Byte) (w : Work) :
    (checkLength c b w).s.st ≠ .transmitPending := by
  unfold checkLength
  split <;> simp

theorem checkPayload_st (w : Work) (h : w.s.st = .receivingPayload) :
    (checkPayload w).s.st ≠ .transmitPending := by
  unfold checkPayload
  split <;> simp [h]

/-! ### RX_BYTE, situation by situation -/

/-- The event after step 2, where no timeout fired. -/
def stamped (t : U16) (s : State) : Work := { s := s.setLastT t, r := {} }

@[simp] theorem stamped_s (t : U16) (s : State) : (stamped t s).s = s.setLastT t := rfl
@[simp] theorem stamped_r (t : U16) (s : State) : (stamped t s).r = {} := rfl

/-- After a timeout the byte is handled as in IDLE (R81, R83). -/
theorem rxByte_timeout {c : Config} {b : Byte} {t : U16} {s : State} (h : timedOut c t s = true) :
    rxByte c b t s
      = (rxIdle c b { s := (s.setSt .idle).setLastT t, r := { diag := diagTimeoutAbort } }).finish := by
  have hw : rxTimestamp t (rxTimeout c t (Work.begin s))
      = { s := (s.setSt .idle).setLastT t, r := { diag := diagTimeoutAbort } } := by
    simp [rxTimeout, h, rxTimestamp, Work.upd, Work.flag, Work.begin]
  rw [rxByte, hw]
  exact congrArg Work.finish (turnaround_other c _ (rxIdle_st c b _ rfl))

theorem rxByte_inTime {c : Config} {b : Byte} {t : U16} {s : State} (h : timedOut c t s = false) :
    rxByte c b t s = (turnaround c (rxStep3 c b (stamped t s))).finish := by
  have hw : rxTimestamp t (rxTimeout c t (Work.begin s)) = stamped t s := by
    simp [rxTimeout, h, rxTimestamp, Work.upd, Work.begin, stamped]
  rw [rxByte, hw]

theorem rxByte_idle {c : Config} {b : Byte} {t : U16} {s : State} (hs : s.st = .idle) :
    rxByte c b t s = (rxIdle c b (stamped t s)).finish := by
  rw [rxByte_inTime (timedOut_idle c t s hs), rxStep3]
  simp only [stamped_s, State.setLastT_st, hs]
  rw [turnaround_other c _ (rxIdle_st c b (stamped t s) hs)]

theorem rxByte_length {c : Config} {b : Byte} {t : U16} {s : State} (h : timedOut c t s = false)
    (hs : s.st = .receivingLength) :
    rxByte c b t s = (checkLength c b ((stamped t s).upd (State.pushRxb c b))).finish := by
  rw [rxByte_inTime h, rxStep3]
  simp only [stamped_s, State.setLastT_st, hs]
  rw [rxLength, turnaround_other c _ (checkLength_st c b _)]

theorem rxByte_payload {c : Config} {b : Byte} {t : U16} {s : State} (h : timedOut c t s = false)
    (hs : s.st = .receivingPayload) :
    rxByte c b t s = (checkPayload ((stamped t s).upd (State.pushRxb c b))).finish := by
  rw [rxByte_inTime h, rxStep3]
  simp only [stamped_s, State.setLastT_st, hs]
  rw [rxPayload, turnaround_other c _ (checkPayload_st ((stamped t s).upd (State.pushRxb c b)) hs)]

theorem rxByte_transmitting {c : Config} {b : Byte} {t : U16} {s : State} (h : timedOut c t s = false)
    (hs : s.st = .transmitting) : rxByte c b t s = (rxIgnored (stamped t s)).finish := by
  rw [rxByte_inTime h, rxStep3]
  simp only [stamped_s, State.setLastT_st, hs]
  rw [turnaround_other c (rxIgnored (stamped t s)) (by simp [hs])]

theorem rxByte_pending {c : Config} {b : Byte} {t : U16} {s : State} (h : timedOut c t s = false)
    (hs : s.st = .transmitPending) :
    rxByte c b t s = (turnaround c (rxIgnored (stamped t s))).finish := by
  rw [rxByte_inTime h, rxStep3]
  simp only [stamped_s, State.setLastT_st, hs]

theorem rxByte_crc {c : Config} {b : Byte} {t : U16} {s : State} (h : timedOut c t s = false)
    (hs : s.st = .receivingCrc) :
    rxByte c b t s = (turnaround c (rxCrc c b (stamped t s))).finish := by
  rw [rxByte_inTime h, rxStep3]
  simp only [stamped_s, State.setLastT_st, hs]

/-! ### The step that stores the CRC byte (R86, R87) -/

@[simp] theorem checkCrc_s (c : Config) (b : Byte) (f : List Byte) (w : Work) :
    (checkCrc c b f w).s = w.s.setCrcOk (b == crc8 c f) := by
  simp only [checkCrc]
  split <;> rfl

theorem checkCrc_r (c : Config) (b : Byte) (f : List Byte) (w : Work) :
    (checkCrc c b f w).r
      = { w.r with diag := if b = crc8 c f then w.r.diag else w.r.diag ||| diagCrcMismatch } := by
  by_cases h : b = crc8 c f <;> simp [checkCrc, h]

@[simp] theorem deliver_s (c : Config) (f g : List Byte) (w : Work) : (deliver c f g w).s = w.s := by
  unfold deliver
  split <;> rfl

theorem deliver_r (c : Config) (f g : List Byte) (w : Work) :
    (deliver c f g w).r
      = if isChannelData c f then { w.r with chan := some (remapChannels c g) } else w.r := by
  unfold deliver
  split <;> rfl

/-- The registers of a received frame before step 4. -/
theorem rxCrc_s (c : Config) (b : Byte) (w : Work) :
    (rxCrc c b w).s = ((storeCrcByte c b w.s).setCrcOk
      (b == crc8 c (readRxb c (storeCrcByte c b w.s) 2 ((storeCrcByte c b w.s).rxL - 1)))).setSt .transmitPending := by
  simp only [rxCrc, Work.upd_s, deliver_s, checkCrc_s]

/-- The response to a received frame before step 4: the CRC flag and the channels. -/
theorem rxCrc_r (c : Config) (b : Byte) (w : Work) :
    (rxCrc c b w).r
      = { w.r with
          chan := if isChannelData c (readRxb c (storeCrcByte c b w.s) 0 (storeCrcByte c b w.s).cnt.toNat)
            then some (remapChannels c (readRxb c (storeCrcByte c b w.s) c.chOff c.chBytes)) else w.r.chan,
          diag := if b = crc8 c (readRxb c (storeCrcByte c b w.s) 2 ((storeCrcByte c b w.s).rxL - 1))
            then w.r.diag else w.r.diag ||| diagCrcMismatch } := by
  simp only [rxCrc, Work.upd_r, deliver_r, checkCrc_r]
  split <;> rfl

/-- After that step `st` is TRANSMIT_PENDING, so step 4 acts. -/
@[simp] theorem rxCrc_st (c : Config) (b : Byte) (w : Work) : (rxCrc c b w).s.st = .transmitPending := by
  rw [rxCrc_s]
  rfl

@[simp] theorem rxCrc_txLen (c : Config) (b : Byte) (w : Work) : (rxCrc c b w).s.txLen = w.s.txLen := by
  rw [rxCrc_s]
  rfl

@[simp] theorem rxCrc_txb (c : Config) (b : Byte) (w : Work) : (rxCrc c b w).s.txb = w.s.txb := by
  rw [rxCrc_s]
  rfl

@[simp] theorem rxCrc_responses (c : Config) (b : Byte) (w : Work) :
    (rxCrc c b w).s.responses = w.s.responses := by
  rw [rxCrc_s]
  rfl

/-! ### The buffers over a whole RX_BYTE -/

/-- Step 4 changes no buffer and not the cursor. -/
theorem turnaround_buffers (c : Config) (w : Work) :
    (turnaround c w).s.rxb = w.s.rxb ∧ (turnaround c w).s.txb = w.s.txb ∧ (turnaround c w).s.cnt = w.s.cnt := by
  unfold turnaround
  split
  · split <;> exact ⟨rfl, rfl, rfl⟩
  · exact ⟨rfl, rfl, rfl⟩

/-- All step 3 can do to the buffers: nothing, or one store of the byte at an index the cursor then passes. -/
theorem rxStep3_buffers (c : Config) (b : Byte) (w : Work) :
    (rxStep3 c b w).s.txb = w.s.txb
    ∧ ((rxStep3 c b w).s.rxb = w.s.rxb
      ∨ ∃ x : Count, (rxStep3 c b w).s.rxb = w.s.rxb.store c.cap x.toNat b ∧ (rxStep3 c b w).s.cnt = x + 1) := by
  unfold rxStep3
  cases w.s.st with
  | idle =>
    simp only [rxIdle]
    split
    · exact ⟨rfl, .inr ⟨0, rfl, rfl⟩⟩
    · exact ⟨rfl, .inl rfl⟩
  | receivingLength =>
    simp only [rxLength, checkLength]
    split <;> exact ⟨rfl, .inr ⟨w.s.cnt, rfl, rfl⟩⟩
  | receivingPayload =>
    simp only [rxPayload, checkPayload]
    split <;> exact ⟨rfl, .inr ⟨w.s.cnt, rfl, rfl⟩⟩
  | receivingCrc =>
    refine ⟨rxCrc_txb c b w, .inr ⟨w.s.cnt, ?_, ?_⟩⟩
    · rw [rxCrc_s]; rfl
    · rw [rxCrc_s]; rfl
  | transmitPending => exact ⟨rfl, .inl rfl⟩
  | transmitting => exact ⟨rfl, .inl rfl⟩

/-- All RX_BYTE can do to the buffers, in every state: TXB stays, and RXB takes at most the one byte. -/
theorem rxByte_buffers (c : Config) (b : Byte) (t : U16) (s : State) :
    (rxByte c b t s).txb = s.txb
    ∧ ((rxByte c b t s).rxb = s.rxb
      ∨ ∃ x : Count, (rxByte c b t s).rxb = s.rxb.store c.cap x.toNat b ∧ (rxByte c b t s).cnt = x + 1) := by
  have hw : ∀ w : Work, w.s.txb = s.txb → w.s.rxb = s.rxb →
      (turnaround c (rxStep3 c b w)).finish.txb = s.txb
      ∧ ((turnaround c (rxStep3 c b w)).finish.rxb = s.rxb
        ∨ ∃ x : Count, (turnaround c (rxStep3 c b w)).finish.rxb = s.rxb.store c.cap x.toNat b
          ∧ (turnaround c (rxStep3 c b w)).finish.cnt = x + 1) := by
    intro w ht hr
    obtain ⟨h1, h2, h3⟩ := turnaround_buffers c (rxStep3 c b w)
    obtain ⟨h4, h5⟩ := rxStep3_buffers c b w
    rw [Work.finish, State.respond_txb, State.respond_rxb, State.respond_cnt, h1, h2, h3, ← ht, ← hr]
    exact ⟨h4, h5⟩
  rw [rxByte]
  apply hw <;> (simp only [rxTimeout]; split <;> rfl)

end Sys2Proof.Machine
end

