-- ==== Sys2Proof/Laws/Step.lean ====
section
/-!
SUPPORT. What a step does, case by case, and each arm of exec as an equation.
-/

namespace Sys2Proof.Machine

theorem takeEvent_nil {s : State} (h : s.events = []) : takeEvent s = none := by
  simp [takeEvent, h]

theorem takeEvent_cons {s : State} {e : Event} {rest : List Event} (h : s.events = e :: rest) :
    takeEvent s = some (e, s.setEvents rest) := by
  simp [takeEvent, h]

/-- All a step can do: nothing, run the decoded event, or answer a reserved one. -/
theorem step_cases (s : State) :
    (s.events = [] ∧ step s = .next s)
    ∨ (∃ e rest i, s.events = e :: rest ∧ decode e = .ok i ∧ step s = exec i (s.setEvents rest))
    ∨ (∃ e rest r, s.events = e :: rest ∧ decode e = .error r
        ∧ step s = .next (reservedEvent (s.setEvents rest))) := by
  cases h : s.events with
  | nil => exact .inl ⟨rfl, by simp [step, takeEvent_nil h, idleStep]⟩
  | cons e rest =>
    cases hd : decode e with
    | ok i => exact .inr (.inl ⟨e, rest, i, rfl, hd, by simp [step, takeEvent_cons h, hd]⟩)
    | error r =>
      exact .inr (.inr ⟨e, rest, r, rfl, hd, by simp [step, takeEvent_cons h, hd, reservedStep]⟩)

/-! ### exec and step are the core at the chip's configuration (R8) -/

theorem exec_eq_perform (i : Instr) (s : State) : exec i s = .next (perform Config.chip i s) := by
  cases i <;> rfl

theorem step_eq_advance (s : State) : step s = .next (advance Config.chip s) := by
  rcases h : takeEvent s with _ | ⟨e, s'⟩
  · simp [step, advance, h, idleStep]
  · cases hd : decodeEvent Config.chip e with
    | ok i => simp [step, advance, h, decode, hd, exec_eq_perform]
    | error r => simp [step, advance, h, decode, hd, reservedStep]

/-! ### The arms of exec -/

theorem exec_rxByte (b : Byte) (t : U16) (s : State) :
    exec (.rxByte b t) s = .next (rxByte Config.chip b t s) := rfl
theorem exec_txDone (s : State) : exec .txDone s = .next (txDone s) := rfl
theorem exec_enqLs (p : List Byte) (s : State) :
    exec (.enqLs p) s = .next (enqEvent Config.chip .ls p s) := rfl
theorem exec_enqUp (p : List Byte) (s : State) :
    exec (.enqUp p) s = .next (enqEvent Config.chip .up p s) := rfl
theorem exec_enqDn (p : List Byte) (s : State) :
    exec (.enqDn p) s = .next (enqEvent Config.chip .dn p s) := rfl
theorem exec_qpend (s : State) : exec .qpend s = .next (returnValue (.flag s.txPending) s) := rfl
theorem exec_rdreg (r : U16) (s : State) : exec (.rdreg r) s = .next (rdreg Config.chip r s) := rfl
theorem exec_crc8 (p : List Byte) (s : State) : exec (.crc8 p) s = .next (crc8Event Config.chip p s) := rfl
theorem exec_buildLs (p : List Byte) (s : State) :
    exec (.buildLs p) s = .next (buildEvent Config.chip .ls p s) := rfl
theorem exec_buildUp (p : List Byte) (s : State) :
    exec (.buildUp p) s = .next (buildEvent Config.chip .up p s) := rfl
theorem exec_buildDn (p : List Byte) (s : State) :
    exec (.buildDn p) s = .next (buildEvent Config.chip .dn p s) := rfl
theorem exec_classify (p : List Byte) (s : State) :
    exec (.classify p) s = .next (classifyEvent Config.chip p s) := rfl
theorem exec_remap (p : List Byte) (s : State) : exec (.remap p) s = .next (remapEvent Config.chip p s) := rfl
theorem exec_reset (s : State) : exec .reset s = .next (resetCore s) := rfl

/-! ### The chip's parameters (R8) -/

@[simp] theorem chip_cap : Config.chip.cap = 128 := rfl
@[simp] theorem chip_tmoUs : Config.chip.tmoUs = 500 := rfl
@[simp] theorem chip_psize_ls : Config.chip.psize .ls = 10 := rfl
@[simp] theorem chip_psize_up : Config.chip.psize .up = 6 := rfl
@[simp] theorem chip_psize_dn : Config.chip.psize .dn = 5 := rfl
@[simp] theorem chip_tsBits : Config.chip.tsBits = 16 := rfl
@[simp] theorem chip_nCh : Config.chip.nCh = 16 := rfl
@[simp] theorem chip_chBits : Config.chip.chBits = 11 := rfl
@[simp] theorem chip_chOff : Config.chip.chOff = 3 := rfl
@[simp] theorem chip_chBytes : Config.chip.chBytes = 22 := rfl
@[simp] theorem chip_addrOut : Config.chip.addrOut = Config.chip.addrIn := rfl
@[simp] theorem chip_crcPoly : Config.chip.crcPoly = 0xD5 := rfl
@[simp] theorem chip_crcSeed : Config.chip.crcSeed = 0 := rfl

/-- On the chip the elapsed time is the u16 difference itself (R81). -/
@[simp] theorem chip_elapsed (t : U16) (s : State) : elapsed Config.chip t s = (t - s.lastT).toNat :=
  Nat.mod_eq_of_lt (t - s.lastT).isLt

end Sys2Proof.Machine
end

