-- ==== Sys2Proof/Tests/Slice0.lean ====
section
/-!
SUPPORT. Tests. Expected results come from 95_test_vectors.md, or from the rule named; the configuration of those vectors
is `testCfg`. Then one witness for the hypotheses of every statement that has some.
-/

namespace Sys2Proof.Tests

open Sys2Proof.Machine

/-- The configuration of 95_test_vectors.md. -/
def testCfg : Config where
  cap     := 128
  addrIn  := 0xC8
  addrOut := 0xC8
  tChan   := 0x16
  tLs     := 0x14
  tUp     := 0x1D
  tDn     := 0x1C
  psLs    := 10
  psUp    := 6
  psDn    := 5
  tmoUs   := 500
  crcPoly := 0xD5
  crcSeed := 0x00
  tsBits  := 16
  nCh     := 16
  chBits  := 11
  chOff   := 3
  chBytes := 22
  ok      := by decide

/-- Another configuration: four channels of 6 bits from offset 5, and timestamps of 10 bits. -/
def smallCfg : Config where
  toParams := { testCfg.toParams with tsBits := 10, nCh := 4, chBits := 6, chOff := 5, chBytes := 3 }
  ok       := by decide

/-- The state a step leaves. -/
def after (o : Host.Outcome State Fault Refusal) : Option State :=
  match o with
  | .next s => some s
  | .fault _ => none
  | .refused _ => none

/-- The response of the last event. -/
def answer (s : State) : Option Response := s.responses.getLast?

/-! ### Well-formedness and configuration -/

/-- R64: one ill-formed term for each check, refused by it; and terms at the ends of the ranges, accepted. -/
theorem test_wellFormed :
    (Instr.enqLs (List.replicate 9 0)).wellFormed testCfg = false
    ∧ (Instr.enqUp (List.replicate 7 0)).wellFormed testCfg = false
    ∧ (Instr.enqDn []).wellFormed testCfg = false
    ∧ (Instr.crc8 (List.replicate 129 0)).wellFormed testCfg = false
    ∧ (Instr.buildLs (List.replicate 11 0)).wellFormed testCfg = false
    ∧ (Instr.buildUp (List.replicate 5 0)).wellFormed testCfg = false
    ∧ (Instr.buildDn (List.replicate 6 0)).wellFormed testCfg = false
    ∧ (Instr.classify [0xC8, 0x18]).wellFormed testCfg = false
    ∧ (Instr.classify (List.replicate 129 0)).wellFormed testCfg = false
    ∧ (Instr.remap (List.replicate 21 0)).wellFormed testCfg = false
    ∧ (Instr.crc8 []).wellFormed testCfg = true
    ∧ (Instr.crc8 (List.replicate 128 0)).wellFormed testCfg = true
    ∧ (Instr.classify [0, 0, 0]).wellFormed testCfg = true
    ∧ (Instr.remap (List.replicate 22 0)).wellFormed testCfg = true := by decide +kernel

/-- `testCfg` with some parameters replaced, if it is admitted. -/
def admitted (f : Params → Params) : Bool := (Params.accept (f testCfg.toParams)).isSome

/-- R8, R9: each range and constraint refuses a configuration that breaks it. -/
theorem test_config :
    admitted (fun p => { p with cap := 127 }) = false ∧ admitted (fun p => { p with cap := 257 }) = false
    ∧ admitted (fun p => { p with psLs := 125 }) = false ∧ admitted (fun p => { p with psLs := 0 }) = false
    ∧ admitted (fun p => { p with psUp := 125 }) = false ∧ admitted (fun p => { p with psUp := 0 }) = false
    ∧ admitted (fun p => { p with psDn := 125 }) = false ∧ admitted (fun p => { p with psDn := 0 }) = false
    ∧ admitted (fun p => { p with tmoUs := 65536, tsBits := 17 }) = false
    ∧ admitted (fun p => { p with tsBits := 8 }) = false ∧ admitted (fun p => { p with chBytes := 21 }) = false
    ∧ admitted (fun p => { p with chOff := 107 }) = false ∧ admitted (fun p => { p with chOff := 106 }) = true
    ∧ admitted (fun p => { p with cap := 256, psLs := 252, psUp := 124, psDn := 1, tmoUs := 65535 }) = true := by
  decide +kernel

/-! ### Decoding, words written out from R63 and R65 -/

/-- OP 1, SUB 0, B 0xC8, T 100; and OP 2. -/
theorem test_decode_line :
    decodeEvent testCfg { word := 0x10C80064, operand := [] } = .ok (.rxByte 0xC8 0x0064)
    ∧ decodeEvent testCfg { word := 0x20000000, operand := [] } = .ok .txDone := by decide

/-- OP 3, SUB 0, 1, 2. -/
theorem test_decode_enq :
    decodeEvent testCfg { word := 0x30000000, operand := [0, 1, 2, 3, 4, 5, 6, 7, 8, 9] }
      = .ok (.enqLs [0, 1, 2, 3, 4, 5, 6, 7, 8, 9])
    ∧ decodeEvent testCfg { word := 0x31000000, operand := [0, 1, 2, 3, 4, 5] } = .ok (.enqUp [0, 1, 2, 3, 4, 5])
    ∧ decodeEvent testCfg { word := 0x32000000, operand := [0, 1, 2, 3, 4] } = .ok (.enqDn [0, 1, 2, 3, 4]) := by
  decide

/-- OP 4, OP 5 with R in bits 15..0, OP F. -/
theorem test_decode_observe :
    decodeEvent testCfg { word := 0x40000000, operand := [] } = .ok .qpend
    ∧ decodeEvent testCfg { word := 0x50000100, operand := [] } = .ok (.rdreg 0x0100)
    ∧ decodeEvent testCfg { word := 0xF0000000, operand := [] } = .ok .reset := by decide

/-- OP 8 and OP A with N in bits 8..0, OP 9 with SUB 0, 1, 2, OP B. -/
theorem test_decode_codec :
    decodeEvent testCfg { word := 0x80000001, operand := [1] } = .ok (.crc8 [1])
    ∧ decodeEvent testCfg { word := 0x90000000, operand := [0, 1, 2, 3, 4, 5, 6, 7, 8, 9] }
      = .ok (.buildLs [0, 1, 2, 3, 4, 5, 6, 7, 8, 9])
    ∧ decodeEvent testCfg { word := 0x91000000, operand := [0, 1, 2, 3, 4, 5] } = .ok (.buildUp [0, 1, 2, 3, 4, 5])
    ∧ decodeEvent testCfg { word := 0x92000000, operand := [0, 1, 2, 3, 4] } = .ok (.buildDn [0, 1, 2, 3, 4])
    ∧ decodeEvent testCfg { word := 0xA0000003, operand := [0, 1, 2] } = .ok (.classify [0, 1, 2])
    ∧ decodeEvent testCfg { word := 0xB0000000, operand := List.replicate 22 7 }
      = .ok (.remap (List.replicate 22 7)) := by decide

/-- R67, each kind of reserved event; words of 95_test_vectors.md 2.1, 2.2, 2.3, 2.6, 2.8 and 2.9. -/
theorem test_decode_reserved :
    decodeEvent testCfg { word := 0x00000000, operand := [] } = .error .unlistedOp
    ∧ decodeEvent testCfg { word := 0xE0000000, operand := [] } = .error .unlistedOp
    ∧ decodeEvent testCfg { word := 0x33000000, operand := [] } = .error .unlistedSub
    ∧ decodeEvent testCfg { word := 0x93000000, operand := [] } = .error .unlistedSub
    ∧ decodeEvent testCfg { word := 0x20000001, operand := [] } = .error .unusedField
    ∧ decodeEvent testCfg { word := 0x50010000, operand := [] } = .error .unusedField
    ∧ decodeEvent testCfg { word := 0xF0000001, operand := [] } = .error .unusedField
    ∧ decodeEvent testCfg { word := 0x80000081, operand := List.replicate 129 0 } = .error .lengthField
    ∧ decodeEvent testCfg { word := 0xA0000002, operand := [0xC8, 0x18] } = .error .lengthField
    ∧ decodeEvent testCfg { word := 0x90000000, operand := List.replicate 9 0 } = .error .operandLength
    ∧ decodeEvent testCfg { word := 0xB0000000, operand := List.replicate 21 0 } = .error .operandLength := by decide

/-- A table word of 32 bits brings an operand string of zeros (log entry 4); the shortest CLASSIFY is a reserved word. -/
theorem test_decode_table :
    decodeTableWord 32 0x10C80064 = some (.rxByte 0xC8 100)
    ∧ decodeTableWord 32 0x31000000 = some (.enqUp [0, 0, 0, 0, 0, 0])
    ∧ decodeTableWord 32 0x80000000 = some (.crc8 [])
    ∧ decodeTableWord 40 0x0180000001 = some (.crc8 [1])
    ∧ decodeTableWord 32 0xA0000003 = some (.classify [0, 0, 0])
    ∧ decodeTableWord 32 0xA0000000 = none := by decide

/-- `step` runs the event `withFetchWord` places, first after reset. -/
theorem test_withFetchWord :
    (after (step (State.reset.withFetchWord 32 0x20000000))).map (fun s => (s.st, s.responses))
      = some (.idle, [{ diag := 0x40 }]) := by decide

/-! ### The frame state machine (95_test_vectors.md 2.5, 2.6) -/

/-- Receiving a length byte at time 100. -/
def inLength : State := { State.reset with st := .receivingLength, cnt := 1, rxb := [(0, 0xC8)], lastT := 100 }

/-- V12 after its type byte: a whole frame of type 0x14 but for its CRC byte. -/
def inCrc : State :=
  { State.reset with st := .receivingCrc, cnt := 3, rxb := [(0, 0xC8), (1, 2), (2, 0x14)], lastT := 40 }

/-- Transmitting at time 200. -/
def sending : State := { State.reset with st := .transmitting, txEn := true, lastT := 200 }

/-- V3 to V11 and V16: the timeout is strict and the length range is 2..126. -/
theorem test_rxByte_limits :
    (rxByte testCfg 0x0C 600 inLength).st = .receivingPayload
    ∧ (rxByte testCfg 0x0C 600 inLength).rxb = [(0, 0xC8), (1, 0x0C)]
    ∧ answer (rxByte testCfg 0x0C 601 inLength) = some { diag := 0x03 }
    ∧ (rxByte testCfg 0xC8 601 inLength).st = .receivingLength ∧ (rxByte testCfg 0xC8 601 inLength).cnt = 1
    ∧ (rxByte testCfg 0x00 120 inLength).st = .idle ∧ (rxByte testCfg 0x00 120 inLength).cnt = 2
    ∧ answer (rxByte testCfg 0x01 120 inLength) = some { diag := 0x04 }
    ∧ (rxByte testCfg 0x02 120 inLength).st = .receivingPayload
    ∧ (rxByte testCfg 0x7E 120 inLength).st = .receivingPayload
    ∧ answer (rxByte testCfg 0x7F 120 inLength) = some { diag := 0x04 }
    ∧ (rxByte testCfg 0xC8 800 sending).st = .receivingLength
    ∧ (rxByte testCfg 0xC8 800 sending).txEn = true := by decide

/-- V12 and V13: the CRC byte of the smallest frame, right and wrong; STATUS 0x0030 after the right one. -/
theorem test_rxByte_crc :
    (rxByte testCfg 0xAC 60 inCrc).status = 0x0030 ∧ (rxByte testCfg 0xAC 60 inCrc).cnt = 4
    ∧ answer (rxByte testCfg 0xAC 60 inCrc) = some {}
    ∧ (rxByte testCfg 0xAD 60 inCrc).frameRx = true ∧ (rxByte testCfg 0xAD 60 inCrc).crcOk = false
    ∧ answer (rxByte testCfg 0xAD 60 inCrc) = some { diag := 0x08 } := by decide

/-- R8, R81 with TS_BITS = 10: 1144 - 100 is 20 modulo 2^10, and 1121 - 100 is over 500. -/
theorem test_config_timestamp : timedOut smallCfg 1144 inLength = false ∧ timedOut smallCfg 1121 inLength = true
    ∧ timedOut testCfg 1144 inLength = true := by decide

/-- 2.6: in TRANSMITTING, and in IDLE. -/
theorem test_txDone :
    (txDone sending).st = .idle ∧ (txDone sending).txEn = false ∧ answer (txDone sending) = some {}
    ∧ answer (txDone State.reset) = some { diag := 0x40 } := by decide

/-! ### ENQ_*, QPEND, RDREG (95_test_vectors.md 2.7, 2.8) -/

/-- The downlink frame of 2.2 in the queue. -/
def queuedDn : State :=
  { State.reset with
    txb := [(0, 0xC8), (1, 7), (2, 0x1C), (3, 0x50), (4, 0x55), (5, 0x63), (6, 0xFB), (7, 3), (8, 0x8D)], txLen := 9 }

/-- 2.7: the three frames, from reset. -/
theorem test_enqueue :
    (enqueue testCfg .ls [0x50, 0x52, 0x64, 0x0A, 0x00, 0x04, 0x01, 0x55, 0x62, 0xF6] State.reset).txb.readRange 0 14
      = [0xC8, 0x0C, 0x14, 0x50, 0x52, 0x64, 0x0A, 0x00, 0x04, 0x01, 0x55, 0x62, 0xF6, 0xE0]
    ∧ (enqueue testCfg .up [0x4E, 0x5A, 0x64, 0x08, 0x02, 0x32] State.reset).txb.readRange 0 10
      = [0xC8, 0x08, 0x1D, 0x4E, 0x5A, 0x64, 0x08, 0x02, 0x32, 0xA9]
    ∧ (enqueue testCfg .up [0x4E, 0x5A, 0x64, 0x08, 0x02, 0x32] State.reset).txLen = 10
    ∧ enqueue testCfg .dn [0x50, 0x55, 0x63, 0xFB, 0x03] State.reset
      = { queuedDn with responses := [{ ack := true }] } := by decide +kernel

/-- 2.7: with a frame queued, the new one is dropped. -/
theorem test_enqueue_dropped :
    enqueue testCfg .up [1, 2, 3, 4, 5, 6] queuedDn
      = { queuedDn with responses := [{ ack := false, diag := 0x10 }] } := by decide

/-- 2.8. -/
theorem test_qpend :
    answer (qpend State.reset) = some { value := some (.flag false) }
    ∧ answer (qpend queuedDn) = some { value := some (.flag true) } := by decide

/-- 2.8: STATUS in TRANSMITTING and in RECEIVING_PAYLOAD, a byte of RXB, the reserved numbers. -/
theorem test_rdreg :
    regRead testCfg 0x0000 { sending with frameRx := true, crcOk := true } = some 0x003D
    ∧ regRead testCfg 0x0000 { queuedDn with st := .receivingPayload } = some 0x0042
    ∧ regRead testCfg 0x0100 inLength = some 0x00C8 ∧ regRead testCfg 0x0003 inLength = some 0x0064
    ∧ regRead testCfg 0x0208 queuedDn = some 0x008D
    ∧ answer (rdreg testCfg 0x0180 State.reset) = some { value := some (.register 0), diag := 0x80 }
    ∧ answer (rdreg testCfg 0x0004 State.reset) = some { value := some (.register 0), diag := 0x80 } := by decide

/-! ### The codec (95_test_vectors.md 2.1 to 2.4) -/

/-- 2.1: single bytes, and the string of S6. -/
theorem test_crc8 :
    crc8 testCfg [0x02] = 0x7F ∧ crc8 testCfg [0x40] = 0x9D ∧ crc8 testCfg [0xD5] = 0x0B
    ∧ crc8 testCfg [0x14, 0x01, 0x02] = 0x1E ∧ crc8 testCfg [0x01, 0x14, 0x02] = 0x60
    ∧ crc8 testCfg [0x14, 0x50, 0x52, 0x64, 0x0A, 0x00, 0x04, 0x01, 0x55, 0x62, 0xF6] = 0xE0 := by decide +kernel

/-- 2.2. -/
theorem test_build :
    buildFrame testCfg .ls (List.replicate 10 0)
      = [0xC8, 0x0C, 0x14, 0x00, 0x00, 0x00, 0x00, 0x00, 0x00, 0x00, 0x00, 0x00, 0x00, 0x3A]
    ∧ buildFrame testCfg .up [0x4E, 0x5A, 0x64, 0x08, 0x02, 0x32]
      = [0xC8, 0x08, 0x1D, 0x4E, 0x5A, 0x64, 0x08, 0x02, 0x32, 0xA9]
    ∧ buildFrame testCfg .dn [0x50, 0x55, 0x63, 0xFB, 0x03]
      = [0xC8, 0x07, 0x1C, 0x50, 0x55, 0x63, 0xFB, 0x03, 0x8D] := by decide +kernel

/-- 2.3. -/
theorem test_classify :
    isChannelData testCfg [0xC8, 0x18, 0x16] = true ∧ isChannelData testCfg [0xC8, 0x0C, 0x14] = false
    ∧ isChannelData testCfg [0x00, 0x00, 0x16] = true := by decide

/-- 2.4: the map, on both sides of zero and of the wrap. -/
theorem test_map :
    mapChannel 0 = 65321 ∧ mapChannel 171 = 65535 ∧ mapChannel 172 = 0 ∧ mapChannel 600 = 535
    ∧ mapChannel 991 = 1023 ∧ mapChannel 1000 = 1033 ∧ mapChannel 1812 = 2048 ∧ mapChannel 2047 = 2342 := by decide +kernel

/-- 2.4: the mixed channels, unpacked. -/
theorem test_unpack :
    (List.range 16).map (unpackChannel testCfg [0xAC, 0x00, 0xDF, 0xC4, 0xB1, 0x04, 0x80, 0xFF, 0xAF, 0x02, 0x7D, 0xBF, 0x08,
      0xDF, 0xF7, 0x28, 0x1E, 0x80, 0x56, 0x00, 0x90, 0xBB])
    = [172, 992, 1811, 600, 0, 2047, 171, 1000, 191, 993, 991, 1812, 1, 173, 1024, 1500] := by decide +kernel

/-- R121 with four channels of 6 bits: 1, 2, 3 and 63 pack into 0x01 + 0x80 + 0x3000 + 0xFC0000 and unpack again. -/
theorem test_config_channels : packChannels smallCfg [1, 2, 3, 63] = [0x81, 0x30, 0xFC]
    ∧ (List.range 4).map (unpackChannel smallCfg [0x81, 0x30, 0xFC]) = [1, 2, 3, 63]
    ∧ (remapChannels smallCfg [0, 0, 0]).length = 4 := by decide +kernel

/-- R160. -/
theorem test_reset :
    resetCore { queuedDn with st := .receivingCrc, cnt := 5, lastT := 7, txEn := true, frameRx := true }
      = { State.reset with responses := [{}] } := by decide

/-- R75, R76: `frame.in 0x14, [], @0, +20` is V12's four bytes; a byte of 256 makes a program ill-formed. -/
theorem test_assemble :
    assemble testCfg [.frameIn 0x14 [] 0 20] = some [{ word := 0x10C80000, operand := [] },
      { word := 0x10020014, operand := [] }, { word := 0x10140028, operand := [] },
      { word := 0x10AC003C, operand := [] }]
    ∧ assemble testCfg [.reset, .rx 256 0] = none := by decide

/-! ### Witnesses: states of the chip -/

/-- Any byte but the address byte. -/
def otherByte : Byte := ~~~Config.chip.addrIn

/-- No byte is its own complement, so the chip can meet a byte that is not its address. -/
theorem test_hyp_otherByte : otherByte ≠ Config.chip.addrIn := (by decide : ∀ b : Byte, ~~~b ≠ b) _

/-- Receiving a length byte. -/
def chipLength : State :=
  { State.reset with st := .receivingLength, cnt := 1, rxb := Memory.write [] 0 Config.chip.addrIn, lastT := 100 }

/-- Receiving a payload: two bytes of a frame of length 3 stored. -/
def chipPayload : State := { State.reset with st := .receivingPayload, cnt := 2, rxb := [(1, 3)], lastT := 100 }

/-- One byte before the end of the largest payload. -/
def chipPayloadEnd : State := { State.reset with st := .receivingPayload, cnt := 126, rxb := [(1, 126)] }

/-- Receiving the CRC byte of the smallest frame. -/
def chipCrc : State := { State.reset with st := .receivingCrc, cnt := 3, rxb := [(1, 2)], lastT := 100 }

/-- Receiving the CRC byte of the largest frame, with a frame queued. -/
def chipCrcQueued : State :=
  { State.reset with st := .receivingCrc, cnt := 127, rxb := [(1, 126)], txLen := 9 }

/-- Transmitting. -/
def chipSending : State := { State.reset with st := .transmitting, txEn := true, lastT := 100 }

/-- A downlink frame in the queue. -/
def chipQueued : State :=
  { State.reset with txb := Memory.writeRange [] 0 (buildFrame Config.chip .dn [1, 2, 3, 4, 5]), txLen := 9 }

/-- A whole frame of length 2 received. -/
def chipReceived : State :=
  { State.reset with
    cnt := 4, rxb := Memory.writeRange [] 0 (inboundFrame Config.chip 0x14 []), frameRx := true, crcOk := true }

/-- The invariant at reset. -/
theorem test_hyp_inv_reset : Inv Config.chip State.reset where
  rxbWf := by decide
  txbWf := by decide
  rxbWithin := by decide
  txbWithin := by decide
  notPending := by decide
  inLength := by decide
  inPayload := by decide
  inCrc := by decide
  cntLe := by decide
  queue := .inl rfl
  lineUp := by decide

/-- The invariant while a length byte is awaited. -/
theorem test_hyp_inv_length : Inv Config.chip chipLength where
  rxbWf := Memory.wf_write (by decide) _ _
  txbWf := by decide
  rxbWithin := Memory.within_write (m := []) (cap := 128) (by decide) (a := 0) (by decide) _
  txbWithin := by decide
  notPending := by decide
  inLength := fun _ => rfl
  inPayload := fun h => nomatch h
  inCrc := fun h => nomatch h
  cntLe := by decide
  queue := .inl rfl
  lineUp := fun h => nomatch h

/-- The invariant in the middle of a payload. -/
theorem test_hyp_inv_payload : Inv Config.chip chipPayload where
  rxbWf := by decide
  txbWf := by decide
  rxbWithin := by decide
  txbWithin := by decide
  notPending := by decide
  inLength := by decide
  inPayload := by decide
  inCrc := by decide
  cntLe := by decide
  queue := .inl rfl
  lineUp := by decide

/-- The invariant at the last byte of the largest payload. -/
theorem test_hyp_inv_payloadEnd : Inv Config.chip chipPayloadEnd where
  rxbWf := by decide
  txbWf := by decide
  rxbWithin := by decide
  txbWithin := by decide
  notPending := by decide
  inLength := by decide
  inPayload := by decide
  inCrc := by decide
  cntLe := by decide
  queue := .inl rfl
  lineUp := by decide

/-- The invariant at the CRC byte of the smallest frame. -/
theorem test_hyp_inv_crc : Inv Config.chip chipCrc where
  rxbWf := by decide
  txbWf := by decide
  rxbWithin := by decide
  txbWithin := by decide
  notPending := by decide
  inLength := by decide
  inPayload := by decide
  inCrc := by decide
  cntLe := by decide
  queue := .inl rfl
  lineUp := by decide

/-- The invariant at the CRC byte of the largest frame, with a frame queued. -/
theorem test_hyp_inv_crcQueued : Inv Config.chip chipCrcQueued where
  rxbWf := by decide
  txbWf := by decide
  rxbWithin := by decide
  txbWithin := by decide
  notPending := by decide
  inLength := by decide
  inPayload := by decide
  inCrc := by decide
  cntLe := by decide
  queue := .inr ⟨.dn, rfl⟩
  lineUp := by decide

/-- The invariant in TRANSMITTING. -/
theorem test_hyp_inv_sending : Inv Config.chip chipSending where
  rxbWf := by decide
  txbWf := by decide
  rxbWithin := by decide
  txbWithin := by decide
  notPending := by decide
  inLength := by decide
  inPayload := by decide
  inCrc := by decide
  cntLe := by decide
  queue := .inl rfl
  lineUp := by decide

/-- The invariant with a frame received. -/
theorem test_hyp_inv_received : Inv Config.chip chipReceived where
  rxbWf := Memory.wf_writeRange (by decide) _ _
  txbWf := by decide
  rxbWithin := Memory.within_writeRange (by decide) (by decide)
  txbWithin := by decide
  notPending := by decide
  inLength := fun h => nomatch h
  inPayload := fun h => nomatch h
  inCrc := fun h => nomatch h
  cntLe := by decide
  queue := .inl rfl
  lineUp := fun h => nomatch h

/-- FrameInv during reception. -/
theorem test_hyp_frameInv_length : FrameInv Config.chip chipLength where
  receiving := fun _ => ⟨rfl, by simp [chipLength]⟩
  complete := fun h => nomatch h
  notOk := fun _ => rfl

/-- FrameInv with a frame received. -/
theorem test_hyp_frameInv_received : FrameInv Config.chip chipReceived where
  receiving := fun h => by rcases h with h | h | h <;> exact nomatch h
  complete := fun _ => by
    have hL : chipReceived.rxL = 2 := by
      simp [chipReceived, State.rxL, Memory.read_writeRange, inboundFrame]
    refine ⟨.inl rfl, ?_, ?_, ?_, ?_, ?_⟩
    · rw [hL]
    · rw [hL]; decide
    · rw [hL]; rfl
    · simp [chipReceived, Memory.read_writeRange, inboundFrame]
    · rw [hL]; simp [chipReceived, Memory.read_writeRange, Memory.readRange, inboundFrame]
  notOk := fun h => nomatch h

theorem readRange_nine {f : List Byte} (h : f.length = 9) : (Memory.writeRange [] 0 f).readRange 0 9 = f := by
  rw [← h]
  exact Memory.readRange_writeRange [] 0 f

/-- QueueInv with a frame queued. -/
theorem test_hyp_queueInv : QueueInv Config.chip chipQueued := by
  have n : chipQueued.txLen.toNat = 9 := by decide
  have m : chipQueued.txb = Memory.writeRange [] 0 (buildFrame Config.chip .dn [1, 2, 3, 4, 5]) := by
    rw [chipQueued]
  refine ⟨.inr ⟨.dn, [1, 2, 3, 4, 5], by decide, ?_⟩, ?_⟩
  · rw [n, m, readRange_nine]
    rw [length_buildFrame]
    rfl
  · intro r h
    simp [chipQueued] at h

/-! ### Witnesses: the hypotheses of each statement -/

/-- DecodeEncodeEveryInstr. -/
theorem test_hyp_decodeEncode : (Instr.enqDn [1, 2, 3, 4, 5]).wellFormed Config.chip = true
    ∧ (Instr.classify [1, 2, 3]).wellFormed Config.chip = true := by decide

/-- EncodeDecodeEveryEvent. -/
theorem test_hyp_encodeDecode :
    decodeEvent Config.chip { word := 0x82000000, operand := [] } ≠ .ok .reset
    ∧ decodeEvent Config.chip { word := 0x80000002, operand := [5, 6] } = .ok (.crc8 [5, 6]) := by decide

/-- AtMostOneRowMatchesAnyWord. -/
theorem test_hyp_oneRow : Row.fits .reset 0xF0000000 = true := by decide

/-- StepRunsDeliveredEvent, EveryEventAnsweredOnce and the step invariants: a state with an event waiting. -/
theorem test_hyp_step : (State.reset.deliver { word := 0x20000000, operand := [] }).events
      = { word := 0x20000000, operand := [] } :: []
    ∧ decode { word := 0x20000000, operand := [] } = .ok .txDone
    ∧ (after (step (State.reset.deliver { word := 0x20000000, operand := [] }))).isSome = true := by decide

/-- StepWithoutEventChangesNothing. -/
theorem test_hyp_noEvent : State.reset.events = [] := rfl

/-- ReservedEventChangesNoState: a word for each line of R67, at the ends of the ranges of N. -/
theorem test_hyp_reserved :
    (∀ e ∈ [{ word := 0x60000000, operand := [] }, { word := 0x33000000, operand := [] },
        { word := 0x21000000, operand := [] }, { word := 0xF0800000, operand := [] },
        { word := 0x50010000, operand := [] }, { word := 0x80000200, operand := [] },
        { word := 0x80000081, operand := [] }, { word := 0xA0000002, operand := [1, 2] },
        { word := 0xA0000081, operand := [] }, ({ word := 0x32000000, operand := [1, 2, 3, 4] } : Event)],
      isReservedEvent Config.chip e)
    ∧ ¬ isReservedEvent Config.chip { word := 0xA0000003, operand := [1, 2, 3] } := by
  dsimp only [isReservedEvent]
  decide

/-- RxByteInIdleIgnoresTimeMark, RxByteInIdle (both of its cases), NoiseInIdleChangesNothing. -/
theorem test_hyp_idle : State.reset.st = .idle ∧ ∀ bt ∈ [(otherByte, (5 : U16))], bt.1 ≠ Config.chip.addrIn :=
  ⟨rfl, fun bt h => by rw [List.mem_singleton.1 h]; exact test_hyp_otherByte⟩

/-- EveryStepKeepsInv, EveryStepKeepsFrameInv, EveryStepKeepsQueueInv: with an event waiting. -/
theorem test_hyp_stepInv :
    Inv Config.chip (State.reset.deliver { word := 0x20000000, operand := [] })
    ∧ FrameInv Config.chip (State.reset.deliver { word := 0x20000000, operand := [] })
    ∧ QueueInv Config.chip (State.reset.deliver { word := 0x20000000, operand := [] })
    ∧ ∃ t, step (State.reset.deliver { word := 0x20000000, operand := [] }) = .next t := by
  have h := test_hyp_inv_reset
  refine ⟨⟨h.1, h.2, h.3, h.4, h.5, h.6, h.7, h.8, h.9, h.10, h.11⟩, ⟨?_, ?_, ?_⟩, ⟨.inl rfl, ?_⟩, _, rfl⟩
  · intro h; rcases h with h | h | h <;> exact nomatch h
  · exact fun h => nomatch h
  · exact fun _ => rfl
  · exact fun r h => nomatch h

/-- ReceiveDutyKeepsLineInv: a byte at reset, and an event that is no byte in TRANSMITTING. -/
theorem test_hyp_receiveDuty :
    (LineInv State.reset ∧ receiveDuty State.reset (.rxByte 0 0))
    ∧ (LineInv chipSending ∧ receiveDuty chipSending .txDone) :=
  ⟨⟨Iff.intro (fun h => nomatch h) (fun h => nomatch h), fun _ _ _ => rfl⟩,
    Iff.intro (fun _ => rfl) (fun _ => rfl), fun _ _ h => nomatch h⟩

/-- RxTimeoutExactly and TimedOutByteIsFreshAddressByte: one microsecond over, and in TRANSMITTING across the wrap. -/
theorem test_hyp_timeout :
    (chipLength.st ≠ .idle ∧ 500 < ((601 : U16) - chipLength.lastT).toNat)
    ∧ (chipSending.st ≠ .idle ∧ 500 < ((99 : U16) - chipSending.lastT).toNat) := by decide

/-- RxByteInReceivingLength: in time to the last microsecond; lengths at and beyond both ends. -/
theorem test_hyp_length : chipLength.st = .receivingLength ∧ ((600 : U16) - chipLength.lastT).toNat ≤ 500
    ∧ (2 ≤ (2 : Byte).toNat ∧ (2 : Byte).toNat ≤ 126) ∧ (2 ≤ (126 : Byte).toNat ∧ (126 : Byte).toNat ≤ 126)
    ∧ ¬ 2 ≤ (1 : Byte).toNat ∧ ¬ (127 : Byte).toNat ≤ 126 := by decide

/-- RxByteInReceivingPayload: a byte that does not end the payload, and one that does. -/
theorem test_hyp_payload :
    (chipPayload.st = .receivingPayload ∧ ((600 : U16) - chipPayload.lastT).toNat ≤ 500
      ∧ chipPayload.cnt.toNat + 1 ≠ (chipPayload.rxb.read 1).toNat + 1)
    ∧ (chipPayloadEnd.st = .receivingPayload ∧ ((0 : U16) - chipPayloadEnd.lastT).toNat ≤ 500
      ∧ chipPayloadEnd.cnt.toNat + 1 = (chipPayloadEnd.rxb.read 1).toNat + 1) := by decide

/-- RxByteCompletesFrame, TurnaroundDrainsQueue, ChannelsDeliveredForChannelFrame, CrcNeverGates: the smallest and the
largest frame, without and with a frame queued. -/
theorem test_hyp_crc :
    (chipCrc.st = .receivingCrc ∧ ((600 : U16) - chipCrc.lastT).toNat ≤ 500 ∧ chipCrc.txLen = 0)
    ∧ (chipCrcQueued.st = .receivingCrc ∧ ((0 : U16) - chipCrcQueued.lastT).toNat ≤ 500
      ∧ chipCrcQueued.txLen ≠ 0) := by decide

/-- ChannelsDeliveredForChannelFrame and ChannelsAndStartOnlyAtFrameEnd: a frame whose type byte is T_CHAN. -/
theorem test_hyp_channels :
    ({ chipCrc with rxb := Memory.write [(1, 2)] 2 Config.chip.tChan }).rxb.read 2 = Config.chip.tChan := by
  simp

/-- ChannelsAndStartOnlyAtFrameEnd, DiagBitsOfOneEvent, QueuedFrameStaysUntilSentOrReset: an event that completes with
START, in a state with a frame queued. -/
theorem test_hyp_start : ∃ t, exec (.rxByte 7 0) chipCrcQueued = .next t
    ∧ t.responses.map (fun r => r.dec) = [.start] ∧ chipCrcQueued.txLen ≠ 0 := by
  refine ⟨_, exec_rxByte _ _ _, ?_, by decide⟩
  rw [rxByte_crc (timedOut_false _ _ _ (by decide)) rfl, turnaround_queued (rxCrc_st _ _ _) (by rw [rxCrc_txLen]; decide),
    Work.finish, State.respond_responses, startTransmission_s, startTransmission_r]
  simp only [State.setSt_responses, State.setTxLen_responses, State.setTxEn_responses, rxCrc_responses]
  rfl

/-- QueuedFrameStaysUntilSentOrReset: an event that leaves the queue as it is. -/
theorem test_hyp_queued : ∃ t, exec .qpend chipQueued = .next t := ⟨_, rfl⟩

/-- RxByteInTransmitting (both of its cases) and RxByteInTransmitPending. -/
theorem test_hyp_transmitting :
    (chipSending.st = .transmitting ∧ ((120 : U16) - chipSending.lastT).toNat ≤ 500)
    ∧ (({ State.reset with st := .transmitPending } : State).st = .transmitPending
      ∧ ((20 : U16) - State.reset.lastT).toNat ≤ 500 ∧ State.reset.txLen = 0) := by decide

/-- OnlyTheirEventsWriteTheBuffers: a byte that changes RXB at its last index, and a frame that changes TXB. -/
theorem test_hyp_writes :
    (rxByte Config.chip 7 20 { chipPayloadEnd with cnt := 127 }).rxb.read 127 ≠ chipPayloadEnd.rxb.read 127
    ∧ (enqueue Config.chip .dn [1, 2, 3, 4, 5] State.reset).txb.read 7 ≠ State.reset.txb.read 7 := by
  constructor
  · decide
  · rw [enqueue_empty rfl]
    simp [Memory.read_writeRange, buildFrame, Memory.blank]

/-- NoEventFaults: one over the timeout, with a byte that opens no frame. -/
theorem test_hyp_recover : otherByte ≠ Config.chip.addrIn ∧ 500 < ((601 : U16) - chipLength.lastT).toNat :=
  ⟨test_hyp_otherByte, by decide⟩

/-- InboundFrameIsReceivedWhole and BuiltFrameRoundTrip: timestamps 500 apart, over the wrap. -/
theorem test_hyp_inTime : inTime Config.chip [64536, 65036, 0, 500] ∧ ([64536, 65036, 0, 500] : List U16).length = 0 + 4
    ∧ inTime testCfg (List.replicate 9 7) ∧ (List.replicate 9 (7 : U16)).length = [1, 2, 3, 4, (5 : Byte)].length + 4
    ∧ testCfg.addrOut = testCfg.addrIn ∧ [1, 2, 3, 4, (5 : Byte)].length = testCfg.psize .dn := by
  refine ⟨⟨?_, ?_, ?_, trivial⟩, rfl, ?_, rfl, rfl, rfl⟩
  · decide
  · decide
  · decide
  · simp [List.replicate, inTime]

/-- BuiltFrameRoundTrip: the invariant in another configuration. -/
theorem test_hyp_inv_testCfg : Inv testCfg State.reset where
  rxbWf := by decide
  txbWf := by decide
  rxbWithin := by decide
  txbWithin := by decide
  notPending := by decide
  inLength := by decide
  inPayload := by decide
  inCrc := by decide
  cntLe := by decide
  queue := .inl rfl
  lineUp := by decide

/-- RdregReadsTheMap: both ends of each of its ranges. -/
theorem test_hyp_rdreg :
    0x100 ≤ (0x0100 : U16).toNat ∧ (0x017F : U16).toNat < 0x180 ∧ 0x200 ≤ (0x0200 : U16).toNat
    ∧ (0x027F : U16).toNat < 0x280
    ∧ (regRead Config.chip 0x017F State.reset).isSome = true ∧ regRead Config.chip 0x0180 State.reset = none
    ∧ regRead Config.chip 0x00FF State.reset = none ∧ regRead Config.chip 0x01FF State.reset = none
    ∧ (regRead Config.chip 0x027F State.reset).isSome = true ∧ regRead Config.chip 0x0280 State.reset = none := by decide

/-- EnqueueChecksThenWrites (both of its cases), CombinedFieldsStandAtTheirOffsets, BuildEventsReturnFrame. -/
theorem test_hyp_enqueue : State.reset.txLen = 0 ∧ chipQueued.txLen ≠ 0
    ∧ (List.replicate 10 (0 : Byte)).length = 10 ∧ (List.replicate 6 (0 : Byte)).length = 6
    ∧ (List.replicate 5 (0 : Byte)).length = 5 := by decide

/-- WrongOperandLengthIsReserved: a length on either side of each operation's range. -/
theorem test_hyp_wrongLength : (Instr.enqLs (List.replicate 11 0)).wellFormed Config.chip = false
    ∧ (Instr.buildDn (List.replicate 4 0)).wellFormed Config.chip = false
    ∧ (Instr.classify [0, 0]).wellFormed Config.chip = false
    ∧ (Instr.remap (List.replicate 23 0)).wellFormed Config.chip = false := by decide

/-- CrcEventReturnsCrc and ClassifyReadsTypeByteOnly: the longest operand strings. -/
theorem test_hyp_operand : (List.replicate 128 (0 : Byte)).length ≤ 128 ∧ (List.replicate 125 (0 : Byte)).length ≤ 125 := by
  simp

/-- CrcAlgebra: two strings of equal length. -/
theorem test_hyp_crcAlgebra : [0x12, (0x34 : Byte)].length = [0x56, (0x78 : Byte)].length := rfl

/-- ChannelBitsAreLittleEndian and RemapEventMapsEveryChannel: the last bit of the last channel. -/
theorem test_hyp_channelBits : (List.replicate 22 (0 : Byte)).length = 22 ∧ 15 < 16 ∧ 10 < 11 := by decide

/-- UnpackPackedChannels: the chip with every channel at its largest value, and another configuration. -/
theorem test_hyp_packed : (List.replicate 16 2047).length = Config.chip.nCh
    ∧ Config.chip.nCh * Config.chip.chBits % 8 = 0 ∧ (∀ v ∈ List.replicate 16 2047, v < 2 ^ Config.chip.chBits)
    ∧ [1, 2, 3, 63].length = smallCfg.nCh ∧ smallCfg.nCh * smallCfg.chBits % 8 = 0
    ∧ ∀ v ∈ [1, 2, 3, 63], v < 2 ^ smallCfg.chBits := by decide

/-- MapRanges: channels at both ends of each of its ranges. -/
theorem test_hyp_mapRanges : (172 ≤ 172 ∧ 1811 ≤ 1811) ∧ 171 < 172 ∧ 1811 < 1812 ∧ 2047 ≤ 2047
    ∧ (172 ≤ 2046 ∧ 2046 < 2047) ∧ (0 < 171 ∧ 171 < 172) := by decide

/-- ConfigurationAdmittedExactly: a parameter set that is admitted. -/
theorem test_hyp_params : ∃ c, testCfg.toParams.accept = some c := ⟨testCfg, rfl⟩

end Sys2Proof.Tests
end

/-! ## The frame state machine (40_frame_state_machine.md): general laws -/

namespace Sys2Proof.Machine

/-! ### The timeout on the chip (R81) -/

theorem chip_timedOut_iff (t : U16) (s : State) :
    timedOut Config.chip t s = true ↔ s.st ≠ .idle ∧ 500 < (t - s.lastT).toNat := by
  rw [timedOut_iff, chip_elapsed, chip_tmoUs]

theorem chip_timedOut_false {t : U16} {s : State} (h : (t - s.lastT).toNat ≤ 500) :
    timedOut Config.chip t s = false :=
  timedOut_false _ t s (by rwa [chip_elapsed])

/-! ### The byte in IDLE, and after a timeout (R81, R83) -/

/-- An event whose only trace in the response is one flag. -/
theorem finish_flag {w : Work} (h : w.r = {}) (d : Byte) : (w.flag d).finish = w.s.respond { diag := d } := by
  simp [Work.finish, h]

theorem rxIdle_address {c : Config} {b : Byte} (h : b = c.addrIn) (w : Work) :
    rxIdle c b w = w.upd (startFrame c b) := if_pos h

theorem rxIdle_other {c : Config} {b : Byte} (h : b ≠ c.addrIn) (w : Work) :
    rxIdle c b w = w.flag diagAddrDiscard := if_neg h

/-- A flag raised before step 3 in IDLE may as well be raised after it. -/
theorem rxIdle_flag (c : Config) (b : Byte) (d : Byte) (w : Work) :
    rxIdle c b (w.flag d) = (rxIdle c b w).flag d := by
  by_cases h : b = c.addrIn
  · rw [rxIdle_address h, rxIdle_address h]; rfl
  · rw [rxIdle_other h, rxIdle_other h]
    simp only [Work.flag, BitVec.or_assoc, BitVec.or_comm d]

/-- A byte that times out does what it does in IDLE, with TIMEOUT_ABORT added (R81). -/
theorem rxByte_timeout_eq_idle {c : Config} {b : Byte} {t : U16} {s : State} (h : timedOut c t s = true) :
    rxByte c b t s = ((rxIdle c b (stamped t (s.setSt .idle))).flag diagTimeoutAbort).finish := by
  have hw : (stamped t (s.setSt .idle)).flag diagTimeoutAbort
      = { s := (s.setSt .idle).setLastT t, r := { diag := diagTimeoutAbort } } := by
    simp [stamped, Work.flag]
  rw [rxByte_timeout h, ← rxIdle_flag, hw]

/-- Step 3 in IDLE delivers no channels. -/
theorem rxIdle_chan (c : Config) (b : Byte) (w : Work) : (rxIdle c b w).r.chan = w.r.chan := by
  unfold rxIdle
  split <;> rfl

/-! ### What every step of RX_BYTE keeps -/

/-- What steps 3 and 4 leave alone, whatever they do: the time mark, the record of responses, and whether TIMEOUT_ABORT
is set. -/
structure KeepsTimeout (w v : Work) : Prop where
  lastT     : v.s.lastT = w.s.lastT
  responses : v.s.responses = w.s.responses
  bit       : v.r.diag.getLsbD 1 = w.r.diag.getLsbD 1

theorem KeepsTimeout.refl (w : Work) : KeepsTimeout w w := ⟨rfl, rfl, rfl⟩

theorem KeepsTimeout.trans {u v w : Work} (h : KeepsTimeout u v) (g : KeepsTimeout v w) : KeepsTimeout u w :=
  ⟨g.lastT.trans h.lastT, g.responses.trans h.responses, g.bit.trans h.bit⟩

/-- Registers other than the mark may change. -/
theorem KeepsTimeout.upd (w : Work) {f : State → State} (ht : (f w.s).lastT = w.s.lastT)
    (hr : (f w.s).responses = w.s.responses) : KeepsTimeout w (w.upd f) := ⟨ht, hr, rfl⟩

/-- Another flag may be raised. -/
theorem KeepsTimeout.flag (w : Work) {d : Byte} (hd : d.getLsbD 1 = false) : KeepsTimeout w (w.flag d) :=
  ⟨rfl, rfl, by rw [Work.flag_r, BitVec.getLsbD_or, hd, Bool.or_false]⟩

theorem rxIdle_keepsTimeout (c : Config) (b : Byte) (w : Work) : KeepsTimeout w (rxIdle c b w) := by
  unfold rxIdle
  split
  · exact .upd w rfl rfl
  · exact .flag w (by decide)

theorem checkLength_keepsTimeout (c : Config) (b : Byte) (w : Work) : KeepsTimeout w (checkLength c b w) := by
  unfold checkLength
  split
  · exact .upd w rfl rfl
  · exact .trans (.upd w rfl rfl) (.flag _ (by decide))

theorem checkPayload_keepsTimeout (w : Work) : KeepsTimeout w (checkPayload w) := by
  unfold checkPayload
  split
  · exact .upd w rfl rfl
  · exact .refl w

theorem pushRxb_keepsTimeout (c : Config) (b : Byte) (w : Work) : KeepsTimeout w (w.upd (State.pushRxb c b)) :=
  .upd w rfl rfl

theorem rxCrc_keepsTimeout (c : Config) (b : Byte) (w : Work) : KeepsTimeout w (rxCrc c b w) where
  lastT     := by rw [rxCrc_s]; rfl
  responses := rxCrc_responses c b w
  bit       := by
    rw [rxCrc_r]
    dsimp only
    split
    · rfl
    · exact (KeepsTimeout.flag w (d := diagCrcMismatch) (by decide)).bit

theorem rxStep3_keepsTimeout (c : Config) (b : Byte) (w : Work) : KeepsTimeout w (rxStep3 c b w) := by
  unfold rxStep3
  cases w.s.st with
  | idle => exact rxIdle_keepsTimeout c b w
  | receivingLength => exact (pushRxb_keepsTimeout c b w).trans (checkLength_keepsTimeout c b _)
  | receivingPayload => exact (pushRxb_keepsTimeout c b w).trans (checkPayload_keepsTimeout _)
  | receivingCrc => exact rxCrc_keepsTimeout c b w
  | transmitPending => exact .flag w (by decide)
  | transmitting => exact .flag w (by decide)

theorem turnaround_keepsTimeout (c : Config) (w : Work) : KeepsTimeout w (turnaround c w) := by
  unfold turnaround
  split
  · split <;> exact ⟨rfl, rfl, rfl⟩
  · exact .refl w

/-- The event in progress when its last step is done. -/
def rxWork (c : Config) (b : Byte) (t : U16) (s : State) : Work :=
  turnaround c (rxStep3 c b (rxTimestamp t (rxTimeout c t (Work.begin s))))

theorem rxByte_eq_respond (c : Config) (b : Byte) (t : U16) (s : State) :
    rxByte c b t s = (rxWork c b t s).s.respond (rxWork c b t s).r := rfl

/-- Steps 3 and 4 keep what steps 1 and 2 left of the mark, the record and TIMEOUT_ABORT. -/
theorem rxWork_keepsTimeout (c : Config) (b : Byte) (t : U16) (s : State) :
    KeepsTimeout (rxTimestamp t (rxTimeout c t (Work.begin s))) (rxWork c b t s) :=
  (rxStep3_keepsTimeout c b _).trans (turnaround_keepsTimeout c _)

/-- R82 in every configuration and state. -/
theorem rxByte_lastT (c : Config) (b : Byte) (t : U16) (s : State) : (rxByte c b t s).lastT = t :=
  (rxWork_keepsTimeout c b t s).lastT

/-- RX_BYTE is answered by one response. -/
theorem rxByte_responses (c : Config) (b : Byte) (t : U16) (s : State) :
    (rxByte c b t s).responses = s.responses ++ [(rxWork c b t s).r] := by
  have hb : (rxTimestamp t (rxTimeout c t (Work.begin s))).s.responses = s.responses := by
    unfold rxTimeout
    split <;> rfl
  rw [rxByte_eq_respond, State.respond_responses, (rxWork_keepsTimeout c b t s).responses, hb]

/-- TIMEOUT_ABORT says whether the timeout fired (R81). -/
theorem rxWork_timeoutBit (c : Config) (b : Byte) (t : U16) (s : State) :
    (rxWork c b t s).r.diag.getLsbD 1 = timedOut c t s := by
  rw [(rxWork_keepsTimeout c b t s).bit]
  cases h : timedOut c t s <;> simp [rxTimeout, h, diagTimeoutAbort]

/-- States that answer the same registers with different responses are one core state. -/
theorem sameCore_respond (s : State) (r q : Response) : sameCore (s.respond r) (s.respond q) :=
  ⟨rfl, rfl, rfl, rfl, rfl, rfl, rfl, rfl, rfl⟩

/-- A timed-out byte against the same byte in IDLE: the same registers, and TIMEOUT_ABORT in the response (R81). -/
theorem rxByte_timeout_against_idle {c : Config} {b : Byte} {t : U16} {s : State} (h : timedOut c t s = true) :
    ∃ q : Response, q.chan = none
      ∧ (rxByte c b t { s with st := .idle }).responses = s.responses ++ [q]
      ∧ (rxByte c b t s).responses = s.responses ++ [{ q with diag := q.diag ||| diagTimeoutAbort }]
      ∧ sameCore (rxByte c b t s) (rxByte c b t { s with st := .idle }) := by
  have hresp := (rxIdle_keepsTimeout c b (stamped t (s.setSt .idle))).responses
  refine ⟨(rxIdle c b (stamped t (s.setSt .idle))).r, rxIdle_chan c b _, ?_⟩
  rw [rxByte_timeout_eq_idle h, show rxByte c b t { s with st := .idle } = _ from rxByte_idle rfl]
  exact ⟨congrArg (· ++ [_]) hresp, congrArg (· ++ [_]) hresp, sameCore_respond _ _ _⟩

/-! ### A byte stored at the cursor (R84 to R86) -/

/-- `RXB` with the byte stored at `cnt`. -/
def rxStored (c : Config) (b : Byte) (s : State) : Memory := s.rxb.store c.cap s.cnt.toNat b

theorem read_rxStored {c : Config} {s : State} (hc : s.cnt.toNat < c.cap) (b : Byte) (a : Nat) :
    (rxStored c b s).read a = if a = s.cnt.toNat then b else s.rxb.read a := by
  simp [rxStored, hc]

/-- The length byte, the whole event (R84). -/
theorem rxByte_length_eq {c : Config} {b : Byte} {t : U16} {s : State} (ht : timedOut c t s = false)
    (hs : s.st = .receivingLength) :
    rxByte c b t s =
      if legalLength c b then
        { s with st := .receivingPayload, cnt := s.cnt + 1, rxb := rxStored c b s, lastT := t,
                 responses := s.responses ++ [{}] }
      else
        { s with st := .idle, cnt := s.cnt + 1, rxb := rxStored c b s, lastT := t,
                 responses := s.responses ++ [{ diag := diagLenReject }] } := by
  rw [rxByte_length ht hs, checkLength]
  split
  · rfl
  · exact finish_flag rfl _

/-- The payload ends with the byte that the cursor finds at index `L` (R85). -/
theorem Inv.payloadCursor {c : Config} {s : State} (hi : Inv c s) (hs : s.st = .receivingPayload) :
    2 ≤ s.cnt.toNat ∧ s.cnt.toNat ≤ s.rxL ∧ s.cnt.toNat < c.cap := by
  obtain ⟨-, hhi, hlo, hle⟩ := hi.inPayload hs
  have hcap := c.ok.1.1
  omega

/-- A type or payload byte, the whole event (R85). -/
theorem rxByte_payload_eq {c : Config} {b : Byte} {t : U16} {s : State} (hi : Inv c s)
    (ht : timedOut c t s = false) (hs : s.st = .receivingPayload) :
    rxByte c b t s =
      { s with st := if s.cnt.toNat + 1 = s.rxL + 1 then .receivingCrc else .receivingPayload, cnt := s.cnt + 1,
               rxb := rxStored c b s, lastT := t, responses := s.responses ++ [{}] } := by
  obtain ⟨hlo, hle, hcap⟩ := hi.payloadCursor hs
  have hL : ((s.setLastT t).pushRxb c b).rxL = s.rxL := State.pushRxb_rxL (by simp; omega)
  have hend : s.rxL + 1 ≤ (s.cnt + 1).toNat ↔ s.cnt.toNat + 1 = s.rxL + 1 := by rw [count_succ hcap]; omega
  rw [rxByte_payload ht hs, checkPayload]
  simp only [Work.upd_s, stamped_s, hL, State.pushRxb_cnt, State.setLastT_cnt, hend]
  by_cases h : s.cnt.toNat + 1 = s.rxL + 1
  · rw [if_pos h, if_pos h]; rfl
  · rw [if_neg h, if_neg h, ← hs]; rfl

/-! ### A frame's last byte under the invariant (R86, R87, R90, R91) -/

/-- The type byte decides: CLASSIFY of the first bytes of a buffer, if they reach it (R118). -/
theorem isChannelData_readRange (c : Config) (m : Memory) {n : Nat} (h : 3 ≤ n) :
    isChannelData c (m.readRange 0 n) = true ↔ m.read 2 = c.tChan := by
  have h2 : (m.readRange 0 n)[2]? = some (m.read 2) := by
    rw [List.getElem?_eq_getElem (by rw [Memory.length_readRange]; omega), Memory.getElem_readRange]
  simp [isChannelData, frameType, h2]

/-- The queued frame lies inside TXB (R36, R9). -/
theorem Inv.txLen_le {c : Config} {s : State} (hi : Inv c s) : s.txLen.toNat ≤ c.cap := by
  obtain h | ⟨k, h⟩ := hi.queue
  · omega
  · have := psize_le c k
    omega

/-- A frame's CRC byte goes behind its type byte, inside RXB (R35). -/
theorem Inv.crcCursor {c : Config} {s : State} (hi : Inv c s) (hs : s.st = .receivingCrc) :
    s.cnt.toNat = s.rxL + 1 ∧ 3 ≤ s.cnt.toNat ∧ s.cnt.toNat < c.cap := by
  obtain ⟨hlo, hhi, hcnt⟩ := hi.inCrc hs
  have hcap := c.ok.1.1
  omega

/-- What the CRC byte is compared with: the CRC-8 of type and payload (R58). -/
def expectedCrc (c : Config) (s : State) : Byte := crc8 c (s.rxb.readRange 2 (s.rxL - 1))

/-- The response to a frame's last byte before step 4: CRC_MISMATCH and the channels (R86, R87). -/
def frameResponse (c : Config) (b : Byte) (s : State) : Response :=
  { chan := if s.rxb.read 2 = c.tChan then
      some (remapChannels c ((rxStored c b s).readRange c.chOff c.chBytes)) else none,
    diag := if b = expectedCrc c s then 0 else diagCrcMismatch }

/-- Whether channels are delivered does not depend on the CRC byte (R97). -/
theorem frameResponse_chan_isSome (c : Config) (b : Byte) (s : State) :
    (frameResponse c b s).chan.isSome = decide (s.rxb.read 2 = c.tChan) := by
  unfold frameResponse
  split <;> simp [*]

/-- The registers after a frame's last byte, before step 4. -/
def frameStored (c : Config) (b : Byte) (t : U16) (s : State) : State :=
  { s with st := .transmitPending, cnt := s.cnt + 1, rxb := rxStored c b s, lastT := t, frameRx := true,
           crcOk := b == expectedCrc c s }

/-- Step 3 on a frame's last byte, with the reads from RXB resolved by the invariant. -/
theorem rxCrc_eq {c : Config} {s : State} (hi : Inv c s) (hs : s.st = .receivingCrc) (b : Byte) (t : U16) :
    rxCrc c b (stamped t s) = { s := frameStored c b t s, r := frameResponse c b s } := by
  obtain ⟨hcnt, hlo, hhi⟩ := hi.crcCursor hs
  have hL : (storeCrcByte c b (s.setLastT t)).rxL = s.rxL := State.pushRxb_rxL (by simp; omega)
  have hrxb : (storeCrcByte c b (s.setLastT t)).rxb = rxStored c b s := rfl
  have hcovered : readRxb c (storeCrcByte c b (s.setLastT t)) 2 (s.rxL - 1) = s.rxb.readRange 2 (s.rxL - 1) := by
    rw [readRxb_eq (by omega), hrxb]
    refine Memory.readRange_congr fun i hlt => ?_
    rw [read_rxStored hhi, if_neg (by omega)]
  have hcur : (storeCrcByte c b (s.setLastT t)).cnt.toNat = s.cnt.toNat + 1 := count_succ hhi
  have hchan : isChannelData c (readRxb c (storeCrcByte c b (s.setLastT t)) 0 (s.cnt.toNat + 1)) = true
      ↔ s.rxb.read 2 = c.tChan := by
    rw [readRxb_eq (by omega), isChannelData_readRange c _ (by omega), hrxb, read_rxStored hhi, if_neg (by omega)]
  have hregion := readRxb_eq (s := storeCrcByte c b (s.setLastT t)) (chRegion_le c)
  change Work.mk (rxCrc c b (stamped t s)).s (rxCrc c b (stamped t s)).r = _
  rw [rxCrc_s, rxCrc_r]
  simp only [stamped_s, stamped_r, hL, hcovered, hcur, hchan, hregion, hrxb]
  rfl

/-- Step 4's part of the response: the burst and START where a frame is queued (R90). -/
def addBurst (s : State) (r : Response) : Response :=
  if s.txLen = 0 then r else { r with dec := .start, burst := s.txb.readRange 0 s.txLen.toNat }

theorem addBurst_empty {s : State} (h : s.txLen = 0) (r : Response) : addBurst s r = r := if_pos h

theorem addBurst_queued {s : State} (h : s.txLen ≠ 0) (r : Response) :
    addBurst s r = { r with dec := .start, burst := s.txb.readRange 0 s.txLen.toNat } := if_neg h

@[simp] theorem addBurst_diag (s : State) (r : Response) : (addBurst s r).diag = r.diag := by
  unfold addBurst; split <;> rfl
@[simp] theorem addBurst_chan (s : State) (r : Response) : (addBurst s r).chan = r.chan := by
  unfold addBurst; split <;> rfl
@[simp] theorem addBurst_ack (s : State) (r : Response) : (addBurst s r).ack = r.ack := by
  unfold addBurst; split <;> rfl
@[simp] theorem addBurst_value (s : State) (r : Response) : (addBurst s r).value = r.value := by
  unfold addBurst; split <;> rfl

/-- Whether there is a burst, and which, is the queue's matter alone (R90). -/
theorem addBurst_burst_congr (s : State) {r q : Response} (hd : r.dec = q.dec) (hb : r.burst = q.burst) :
    (addBurst s r).dec = (addBurst s q).dec ∧ (addBurst s r).burst = (addBurst s q).burst := by
  unfold addBurst
  split
  · exact ⟨hd, hb⟩
  · exact ⟨rfl, rfl⟩

/-- The state a frame's last byte leaves: the registers of R86 with step 4 done, and the one response. -/
def frameEnd (c : Config) (b : Byte) (t : U16) (s : State) : State :=
  { frameStored c b t s with
      st := if s.txLen = 0 then .idle else .transmitting,
      txEn := if s.txLen = 0 then s.txEn else true,
      txLen := 0,
      responses := s.responses ++ [addBurst s (frameResponse c b s)] }

/-- Under the invariant RX_BYTE of a frame's last byte is `frameEnd` (R80, R86, R90, R91). -/
theorem rxByte_crc_eq {c : Config} {b : Byte} {t : U16} {s : State} (hi : Inv c s) (ht : timedOut c t s = false)
    (hs : s.st = .receivingCrc) : rxByte c b t s = frameEnd c b t s := by
  rw [rxByte_crc ht hs, rxCrc_eq hi hs]
  by_cases hq : s.txLen = 0
  · rw [turnaround_empty rfl hq]
    simp only [frameEnd, addBurst_empty hq, if_pos hq]
    rw [← hq]
    rfl
  · rw [turnaround_queued rfl hq]
    have hburst : readTxb c (frameStored c b t s) 0 s.txLen.toNat = s.txb.readRange 0 s.txLen.toNat :=
      readTxb_eq (by have := hi.txLen_le; omega)
    simp only [frameEnd, addBurst_queued hq, if_neg hq, ← hburst]
    rfl

end Sys2Proof.Machine

/-! ## The frame state machine: the statements about RX_BYTE -/

namespace Sys2Proof.Machine

/-- Settles O21: only step 2 writes the time mark. -/
theorem rxByteRecordsTimestamp : Obligations.RxByteRecordsTimestamp := fun b t s _ =>
  ⟨_, exec_rxByte b t s, rxByte_lastT _ b t s⟩

/-- Settles O22: bit 1 of diag is the outcome of step 1, and a timed-out byte is compared with the same byte in IDLE. -/
theorem rxTimeoutExactly : Obligations.RxTimeoutExactly := by
  intro b t s _
  refine ⟨_, _, exec_rxByte b t s, rxByte_responses _ b t s, ?_, fun hto => ?_⟩
  · rw [rxWork_timeoutBit, chip_timedOut_iff]
  · obtain ⟨q, hchan, hv, hu, hcore⟩ := rxByte_timeout_against_idle (b := b) ((chip_timedOut_iff t s).2 hto)
    have hr : (rxWork Config.chip b t s).r = { q with diag := q.diag ||| diagTimeoutAbort } := by
      simpa using (rxByte_responses Config.chip b t s).symm.trans hu
    exact ⟨by rw [hr]; exact hchan, _, q, exec_rxByte b t _, hcore, hv, hr⟩

/-- Settles O24, by whether the byte is the address. -/
theorem rxByteInIdle : Obligations.RxByteInIdle := by
  intro b t s hs
  rw [exec_rxByte, rxByte_idle hs]
  split
  · next h =>
    refine ⟨s.rxb.store 128 0 b, fun a => by simp, ?_⟩
    rw [rxIdle_address h]
    rfl
  · next h =>
    rw [rxIdle_other h, finish_flag rfl]
    rfl

/-- Settles O25: in RECEIVING_LENGTH the cursor stands at 1. -/
theorem rxByteInReceivingLength : Obligations.RxByteInReceivingLength := by
  intro b t s hi hs ht
  have hcnt : s.cnt.toNat = 1 := hi.inLength hs
  have hnext : s.cnt + 1 = 2 := by rw [show s.cnt = 1 from BitVec.eq_of_toNat_eq hcnt]; rfl
  refine ⟨rxStored Config.chip b s, fun a => ?_, ?_⟩
  · rw [read_rxStored (by rw [hcnt, chip_cap]; decide), hcnt]
  · rw [exec_rxByte, rxByte_length_eq (chip_timedOut_false ht) hs, hnext]
    simp only [legalLength_iff, chip_cap]
    rfl

/-- Settles O26: under the invariant the cursor is at most `L`. -/
theorem rxByteInReceivingPayload : Obligations.RxByteInReceivingPayload := by
  intro b t s hi hs ht
  obtain ⟨-, -, hcap⟩ := hi.payloadCursor hs
  refine ⟨rxStored Config.chip b s, read_rxStored hcap b, ?_⟩
  rw [exec_rxByte, rxByte_payload_eq hi (chip_timedOut_false ht) hs]
  rfl

/-! ### The end of a frame -/

theorem exec_rxByte_frameEnd {s : State} (hi : Inv Config.chip s) (hs : s.st = .receivingCrc) (b : Byte) {t : U16}
    (ht : (t - s.lastT).toNat ≤ 500) : exec (.rxByte b t) s = .next (frameEnd Config.chip b t s) := by
  rw [exec_rxByte, rxByte_crc_eq hi (chip_timedOut_false ht) hs]

/-- Settles O27. -/
theorem rxByteCompletesFrame : Obligations.RxByteCompletesFrame := by
  intro b t s hi hs ht
  obtain ⟨-, -, hcap⟩ := hi.crcCursor hs
  exact ⟨rxStored Config.chip b s, addBurst s (frameResponse Config.chip b s), read_rxStored hcap b,
    exec_rxByte_frameEnd hi hs b ht, addBurst_diag .., addBurst_chan .., addBurst_ack .., addBurst_value ..⟩

/-- Settles O28, by whether a frame is queued. -/
theorem turnaroundDrainsQueue : Obligations.TurnaroundDrainsQueue := by
  intro b t s hi hs ht
  refine ⟨_, addBurst s (frameResponse Config.chip b s), exec_rxByte_frameEnd hi hs b ht, rfl, rfl, rfl,
    fun hq => ?_, fun hq => ?_⟩
  · rw [addBurst_queued hq]
    refine ⟨if_neg hq, if_neg hq, rfl, Memory.length_readRange .., fun i h => ?_⟩
    rw [Memory.getElem_readRange, Nat.zero_add]
  · rw [addBurst_empty hq]
    exact ⟨if_pos hq, if_pos hq, rfl, rfl⟩

/-- Settles O29. -/
theorem channelsDeliveredForChannelFrame : Obligations.ChannelsDeliveredForChannelFrame := by
  intro b t s hi hs ht
  exact ⟨_, _, exec_rxByte_frameEnd hi hs b ht, rfl, addBurst_chan ..⟩

/-- Settles O31: step 4 and the type byte, not the CRC byte, decide all of it. -/
theorem crcNeverGates : Obligations.CrcNeverGates := by
  intro b b' t s hi hs ht
  obtain ⟨hdec, hburst⟩ := addBurst_burst_congr s (r := frameResponse Config.chip b s)
    (q := frameResponse Config.chip b' s) rfl rfl
  refine ⟨_, _, _, _, exec_rxByte_frameEnd hi hs b ht, exec_rxByte_frameEnd hi hs b' ht, rfl, rfl, rfl, rfl, rfl, rfl,
    rfl, hdec, hburst, ?_⟩
  rw [addBurst_chan, addBurst_chan, frameResponse_chan_isSome, frameResponse_chan_isSome]

/-- Settles O32, by whether the timeout fired and, if so, whether the byte is the address. -/
theorem rxByteInTransmitting : Obligations.RxByteInTransmitting := by
  intro b t s hs
  rw [exec_rxByte]
  split
  · next ht =>
    rw [rxByte_transmitting (chip_timedOut_false ht) hs]
    exact congrArg Host.Outcome.next (finish_flag rfl _)
  · next ht =>
    have hto : timedOut Config.chip t s = true := (chip_timedOut_iff t s).2 ⟨by simp [hs], by omega⟩
    refine ⟨_, rfl, ?_⟩
    rw [rxByte_timeout_eq_idle hto]
    by_cases h : b = Config.chip.addrIn
    · rw [rxIdle_address h, if_pos h]
      exact ⟨rfl, rfl, rfl⟩
    · rw [rxIdle_other h, if_neg h]
      exact ⟨rfl, rfl, rfl⟩

end Sys2Proof.Machine

/-! ## TX_DONE, QPEND and RDREG (R94 to R96) -/

namespace Sys2Proof.Machine

/-- `tx_pending` is the length of the queue, read as a number (R31). -/
theorem txPending_eq (s : State) : s.txPending = decide (s.txLen.toNat ≠ 0) := by
  rw [Bool.eq_iff_iff, State.txPending, bne_iff_ne, decide_eq_true_iff]
  exact BitVec.toNat_ne_iff_ne.symm

/-- Settles O42. -/
theorem txDoneInEveryState : Obligations.TxDoneInEveryState :=
  ⟨by decide, fun s => exec_txDone s⟩

/-- Settles O43. -/
theorem qpendReportsQueue : Obligations.QpendReportsQueue :=
  ⟨by decide, fun s => by rw [exec_qpend, txPending_eq]; rfl⟩

/-- Concatenation of bit vectors, in numbers. -/
theorem toNat_append_eq_add {m n : Nat} (x : BitVec m) (y : BitVec n) :
    (x ++ y).toNat = x.toNat * 2 ^ n + y.toNat := by
  rw [BitVec.toNat_append, ← Nat.shiftLeft_add_eq_or_of_lt y.isLt, Nat.shiftLeft_eq]

/-- STATUS in numbers: each flag at the weight of its bit (R32). -/
theorem status_toNat (s : State) :
    s.status.toNat = s.st.code.toNat + 8 * s.txEn.toNat + 16 * s.frameRx.toNat + 32 * s.crcOk.toNat
      + 64 * s.txPending.toNat := by
  simp only [State.status, toNat_append_eq_add, BitVec.toNat_ofBool, BitVec.toNat_zero]
  omega

/-- Only RDREG has 0x50 in the upper byte of its word (R65). -/
theorem eq_rdreg_of_fits {q : Row} {w : EventWord} (hq : q.fits w = true) (hw : w.extractLsb' 24 8 = 0x50#8) :
    q = .rdreg := by
  have h := (fits_top q w hq).symm.trans hw
  revert h
  cases q <;> decide

/-- An RDREG word decodes to RDREG of its lower half. -/
theorem decode_rdreg (n : U16) : decode { word := 0x5000#16 ++ n, operand := [] } = .ok (.rdreg n) := by
  have hfit : Row.fits .rdreg (0x5000#16 ++ n) = true := (fits_rdreg _).2 BitVec.extractLsb'_append_eq_left
  have hrow : rowOf (0x5000#16 ++ n) = some .rdreg :=
    rowOf_of_fits hfit fun q hq => eq_rdreg_of_fits hq (fits_top .rdreg _ hfit)
  simp only [decode, decodeEvent, hrow, operandLen, Row.instr, fieldT_append]
  rfl

/-- The response to RDREG: 0 with RESERVED_EVENT for a number outside the map, the register otherwise (R96). -/
theorem exec_rdreg_of_regRead {n : U16} {s : State} {o : Option U16} (h : regRead Config.chip n s = o) :
    exec (.rdreg n) s = .next { s with responses := s.responses ++
      [{ value := some (.register (o.getD 0)), diag := o.elim diagReservedEvent fun _ => 0 }] } := by
  rw [exec_rdreg, rdreg_eq, h]
  cases o <;> rfl

/-- The register map of the chip (R33), with the buffer ranges as the numbers they are. -/
theorem chip_regRead (n : U16) (s : State) :
    regRead Config.chip n s =
      if n.toNat = 0 then some s.status
      else if n.toNat = 1 then some (s.cnt.setWidth 16)
      else if n.toNat = 2 then some (s.txLen.setWidth 16)
      else if n.toNat = 3 then some s.lastT
      else if 0x100 ≤ n.toNat ∧ n.toNat < 0x180 then some ((s.rxb.read (n.toNat - 0x100)).setWidth 16)
      else if 0x200 ≤ n.toNat ∧ n.toNat < 0x280 then some ((s.txb.read (n.toNat - 0x200)).setWidth 16)
      else none := by
  have hrxb : (0x100 ≤ n.toNat ∧ n.toNat ≤ 0x1FF ∧ n.toNat - 0x100 < 128) ↔ 0x100 ≤ n.toNat ∧ n.toNat < 0x180 := by
    omega
  have htxb : (0x200 ≤ n.toNat ∧ n.toNat ≤ 0x2FF ∧ n.toNat - 0x200 < 128) ↔ 0x200 ≤ n.toNat ∧ n.toNat < 0x280 := by
    omega
  simp only [regRead, chip_cap, hrxb, htxb]

/-- Settles O44, along the branches of the register map. -/
theorem rdregReadsTheMap : Obligations.RdregReadsTheMap := by
  intro n s
  refine ⟨decode_rdreg n, _, _, exec_rdreg_of_regRead (chip_regRead n s), ?_⟩
  have zeroExtended : ∀ {w : Nat} (x : BitVec w), w ≤ 16 → (x.setWidth 16).toNat = x.toNat :=
    fun _ => BitVec.toNat_setWidth_of_le
  split_ifs
  · exact ⟨rfl, (status_toNat s).trans (by rw [txPending_eq])⟩
  · exact ⟨rfl, zeroExtended s.cnt (by decide)⟩
  · exact ⟨rfl, zeroExtended s.txLen (by decide)⟩
  · exact ⟨rfl, rfl⟩
  · exact ⟨rfl, zeroExtended (s.rxb.read _) (by decide)⟩
  · exact ⟨rfl, zeroExtended (s.txb.read _) (by decide)⟩
  · exact ⟨rfl, rfl⟩

end Sys2Proof.Machine

/-! ## The frame codec (41_frame_codec.md) -/

namespace Sys2Proof.Machine

/-! ### Channels as bits of the payload (R121) -/

/-- Bit `i` of the payload's integer is a bit of byte `i / 8`. -/
theorem testBit_littleEndian (p : List Byte) (i : Nat) :
    (littleEndian p).testBit i = (p.getD (i / 8) 0).getLsbD (i % 8) := by
  induction p generalizing i with
  | nil => simp [littleEndian]
  | cons b p ih =>
    have hsplit : (littleEndian (b :: p)).testBit i
        = if i < 8 then b.toNat.testBit i else (littleEndian p).testBit (i - 8) := by
      rw [littleEndian, Nat.add_comm]
      exact Nat.testBit_two_pow_mul_add _ b.isLt i
    rw [hsplit]
    split
    · next h => rw [Nat.div_eq_of_lt h, Nat.mod_eq_of_lt h]; rfl
    · next h =>
      obtain ⟨j, rfl⟩ := Nat.exists_eq_add_of_le (Nat.le_of_not_lt h)
      rw [Nat.add_sub_cancel_left, ih, Nat.add_mod_left, Nat.add_div_left j (by decide), List.getD_cons_succ]

/-- Bit `j` of channel `k` is bit `CH_BITS * k + j` of the payload's integer. -/
theorem testBit_unpackChannel {c : Config} {j : Nat} (hj : j < c.chBits) (p : List Byte) (k : Nat) :
    (unpackChannel c p k).testBit j = (littleEndian p).testBit (c.chBits * k + j) := by
  simp [unpackChannel, Nat.testBit_mod_two_pow, Nat.testBit_div_two_pow, hj, Nat.add_comm]

/-- Settles O55: the bits of a channel are bits of the payload's integer, and those are bits of its bytes. -/
theorem channelBitsAreLittleEndian : Obligations.ChannelBitsAreLittleEndian := fun p k _ _ =>
  ⟨unpackChannel_lt Config.chip p k, fun _ hj =>
    (testBit_unpackChannel (c := Config.chip) hj p k).trans (testBit_littleEndian p _)⟩

/-! ### MAP (R122, R123) -/

/-- `MAP` before its result is wrapped to 16 bits (R122). -/
def mapUnwrapped (v : Nat) : Int := Int.tdiv (((v : Int) - 992) * 2047) 1638 + 1024

theorem mapChannel_toNat (v : Nat) : ((mapChannel v).toNat : Int) = mapUnwrapped v % 65536 := by
  change ((BitVec.ofInt 16 (mapUnwrapped v)).toNat : Int) = _
  rw [BitVec.toNat_ofInt]
  exact Int.toNat_of_nonneg (Int.emod_nonneg _ (by decide))

/-- From the middle up, truncation rounds down. -/
theorem mapUnwrapped_above (n : Nat) : mapUnwrapped (992 + n) = 1024 + ((n * 2047 / 1638 : Nat) : Int) := by
  rw [mapUnwrapped, Nat.cast_add, Int.add_comm 1024]
  congr 1
  rw [show ((992 : Nat) : Int) + n - 992 = n by omega]
  rfl

/-- Below the middle, truncation rounds up: toward the middle. -/
theorem mapUnwrapped_below {v : Nat} (h : v ≤ 992) :
    mapUnwrapped v = 1024 - (((992 - v) * 2047 / 1638 : Nat) : Int) := by
  rw [mapUnwrapped, show ((v : Int) - 992) * 2047 = -(((992 - v) * 2047 : Nat) : Int) by omega, Int.neg_tdiv]
  change -(((992 - v) * 2047 / 1638 : Nat) : Int) + 1024 = _
  omega

/-- The slope is above 1 and the truncation changes sides at 992, whose value is exact: `MAP` rises at every step until
it wraps. -/
theorem mapUnwrapped_strictMono : StrictMono mapUnwrapped := by
  refine strictMono_nat_of_lt_succ fun v => ?_
  obtain h | h := Nat.lt_or_ge v 992
  · rw [mapUnwrapped_below (Nat.le_of_lt h), mapUnwrapped_below h]
    omega
  · obtain ⟨n, rfl⟩ := Nat.exists_eq_add_of_le h
    rw [Nat.add_assoc, mapUnwrapped_above, mapUnwrapped_above]
    omega

/-- Channels below 172 are the ones that wrap (R123). -/
theorem mapChannel_toNat_of_lt {v : Nat} (h : v < 172) :
    -215 ≤ mapUnwrapped v ∧ ((mapChannel v).toNat : Int) = mapUnwrapped v + 65536 := by
  have hlo : mapUnwrapped 0 ≤ mapUnwrapped v := mapUnwrapped_strictMono.monotone (Nat.zero_le v)
  have hhi : mapUnwrapped v < mapUnwrapped 172 := mapUnwrapped_strictMono h
  rw [show mapUnwrapped 0 = -215 from rfl] at hlo
  rw [show mapUnwrapped 172 = 0 from rfl] at hhi
  rw [mapChannel_toNat]
  omega

/-- Channels from 172 on map without wrapping (R123). -/
theorem mapChannel_toNat_of_ge {v : Nat} (h : 172 ≤ v) (hv : v ≤ 2047) :
    mapUnwrapped v ≤ 2342 ∧ ((mapChannel v).toNat : Int) = mapUnwrapped v := by
  have hlo : mapUnwrapped 172 ≤ mapUnwrapped v := mapUnwrapped_strictMono.monotone h
  have hhi : mapUnwrapped v ≤ mapUnwrapped 2047 := mapUnwrapped_strictMono.monotone hv
  rw [show mapUnwrapped 172 = 0 from rfl] at hlo
  rw [show mapUnwrapped 2047 = 2342 from rfl] at hhi
  rw [mapChannel_toNat]
  omega

/-- Settles O58: on each side of 172 the wrap adds a constant, so ranges and order are those of the unwrapped map. -/
theorem mapRanges : Obligations.MapRanges := by
  intro v w hv hw
  have h1811 : mapUnwrapped 1811 = 2047 := rfl
  refine ⟨fun ⟨hlo, hhi⟩ => ?_, fun h => ?_, fun h => ?_, fun ⟨hlo, hlt⟩ => ?_, fun ⟨hlt, hhi⟩ => ?_,
    by decide, by decide, by decide, by decide, by decide⟩
  · have hmono := mapUnwrapped_strictMono.monotone hhi
    have := mapChannel_toNat_of_ge hlo hv
    omega
  · have := mapChannel_toNat_of_lt h
    omega
  · have hmono := mapUnwrapped_strictMono h
    have := mapChannel_toNat_of_ge (by omega) hv
    omega
  · have hmono := mapUnwrapped_strictMono hlt
    have := mapChannel_toNat_of_ge hlo hv
    have := mapChannel_toNat_of_ge (by omega) hw
    omega
  · have hmono := mapUnwrapped_strictMono hlt
    have := mapChannel_toNat_of_lt (hlt.trans hhi)
    have := mapChannel_toNat_of_lt hhi
    omega

/-! ### The codec events (R112 to R120, R124) -/

/-- R124 for every event that returns a value of its operand: with a wrong operand length it answers a reserved event,
which changes as little. -/
theorem withOperand_returnValue_responds (ok : Bool) (v : Value) (s : State) :
    ∃ r, Host.Outcome.next (withOperand ok s (returnValue v)) =
      (.next { s with responses := s.responses ++ [r] } : Host.Outcome State Fault Refusal) := by
  cases ok with
  | true => exact ⟨_, congrArg _ (withOperand_ok rfl)⟩
  | false => exact ⟨_, congrArg _ (withOperand_reserved rfl)⟩

theorem buildEvent_ok {c : Config} {k : Kind} {p : List Byte} (h : p.length = c.psize k) (s : State) :
    buildEvent c k p s = s.respond { value := some (.frame (buildFrame c k p)) } :=
  withOperand_ok (beq_iff_eq.2 h)

theorem classifyEvent_ok {c : Config} {p : List Byte} (hlo : 3 ≤ p.length) (hhi : p.length ≤ c.cap) (s : State) :
    classifyEvent c p s = s.respond { value := some (.flag (isChannelData c p)) } :=
  withOperand_ok (by simp [hlo, hhi])

theorem remapEvent_ok {c : Config} {p : List Byte} (h : p.length = c.chBytes) (s : State) :
    remapEvent c p s = s.respond { value := some (.channels (remapChannels c p)) } :=
  withOperand_ok (beq_iff_eq.2 h)

/-- Settles O57: the values are REMAP_f's, and MAP's number is the wrapped one. -/
theorem remapEventMapsEveryChannel : Obligations.RemapEventMapsEveryChannel := by
  intro p s hp
  refine ⟨remapChannels Config.chip p, congrArg _ (remapEvent_ok hp s), length_remapChannels .., fun k h => ?_⟩
  rw [getElem_remapChannels]
  exact mapChannel_toNat _

/-- Settles O49, event by event. -/
theorem codecEventsChangeNoState : Obligations.CodecEventsChangeNoState := by
  intro p s
  simp only [List.forall_mem_cons, exec_crc8, exec_buildLs, exec_buildUp, exec_buildDn, exec_classify, exec_remap]
  exact ⟨withOperand_returnValue_responds .., withOperand_returnValue_responds ..,
    withOperand_returnValue_responds .., withOperand_returnValue_responds ..,
    withOperand_returnValue_responds .., withOperand_returnValue_responds .., by simp⟩

/-- Settles O53, kind by kind. -/
theorem buildEventsReturnFrame : Obligations.BuildEventsReturnFrame := fun _ s =>
  ⟨fun h => congrArg _ (buildEvent_ok (k := .ls) h s),
   fun h => congrArg _ (buildEvent_ok (k := .up) h s),
   fun h => congrArg _ (buildEvent_ok (k := .dn) h s)⟩

/-- CLASSIFY_f of a string that reaches its type byte (R118). -/
theorem isChannelData_cons (c : Config) (b0 b1 b2 : Byte) (p : List Byte) :
    isChannelData c (b0 :: b1 :: b2 :: p) = decide (b2 = c.tChan) := by
  change (some b2 == some c.tChan) = _
  rw [Option.some_beq_some, beq_eq_decide]

/-- Settles O54. -/
theorem classifyReadsTypeByteOnly : Obligations.ClassifyReadsTypeByteOnly := by
  intro b0 b1 b2 p s hp
  rw [exec_classify, classifyEvent_ok (by simp) (by simp; omega), isChannelData_cons]
  rfl

end Sys2Proof.Machine

/-! ## Telemetry enqueue (42_telemetry_enqueue.md) -/

namespace Sys2Proof.Machine

/-- A buffer with a byte string written at its start: the string, then what stood there before. -/
theorem Memory.read_writeRange_zero (m : Memory) (f : List Byte) (a : Nat) :
    (m.writeRange 0 f).read a = if a < f.length then f.getD a 0 else m.read a := by
  rw [Memory.read_writeRange]
  by_cases h : a < f.length <;> simp [h]

theorem enqEvent_ok {c : Config} {k : Kind} {p : List Byte} (h : p.length = c.psize k) (s : State) :
    enqEvent c k p s = enqueue c k p s :=
  withOperand_ok (beq_iff_eq.2 h)

/-- R130 for one kind, in any configuration: the frame that is written has the length that is queued. -/
theorem enqEvent_checksThenWrites {c : Config} {k : Kind} {p : List Byte} (h : p.length = c.psize k) (s : State) :
    if s.txLen ≠ 0 then
      (Host.Outcome.next (enqEvent c k p s) : Host.Outcome State Fault Refusal) =
        .next { s with responses := s.responses ++ [{ ack := false, diag := diagEnqDropped }] }
    else ∃ m : Memory,
      (∀ a, m.read a = if a < c.psize k + 4 then (buildFrame c k p).getD a 0 else s.txb.read a)
      ∧ (Host.Outcome.next (enqEvent c k p s) : Host.Outcome State Fault Refusal) =
        .next { s with txb := m, txLen := BitVec.ofNat 9 (c.psize k + 4),
                       responses := s.responses ++ [{ ack := true }] } := by
  have hlen : (buildFrame c k p).length = c.psize k + 4 := by rw [length_buildFrame, h]
  rw [enqEvent_ok h]
  split
  · next hq => exact congrArg _ (enqueue_pending hq)
  · next hq =>
    rw [enqueue_empty (not_ne_iff.1 hq), hlen]
    refine ⟨s.txb.writeRange 0 (buildFrame c k p), fun a => ?_, rfl⟩
    rw [Memory.read_writeRange_zero, hlen]

/-- Settles O45, kind by kind. -/
theorem enqueueChecksThenWrites : Obligations.EnqueueChecksThenWrites := fun _ s =>
  ⟨fun h => enqEvent_checksThenWrites (k := .ls) h s,
   fun h => enqEvent_checksThenWrites (k := .up) h s,
   fun h => enqEvent_checksThenWrites (k := .dn) h s⟩

end Sys2Proof.Machine

/-! ## Reset (70_reset_and_hazards.md) -/

namespace Sys2Proof.Machine

/-- RESET keeps nothing of the registers and buffers it finds (R160). -/
theorem sameCore_resetCore (s : State) : sameCore (resetCore s) State.reset :=
  ⟨rfl, rfl, rfl, rfl, rfl, rfl, rfl, rfl, rfl⟩

/-- The answers so far are no core state: RESET adds its own record to them (log entry 2). -/
theorem resetCore_responses (s : State) : (resetCore s).responses = s.responses ++ [({} : Response)] :=
  State.respond_responses _ _

/-- Settles O11. -/
theorem resetEventRestoresEverything : Obligations.ResetEventRestoresEverything :=
  ⟨by decide, fun s => ⟨resetCore s, exec_reset s, sameCore_resetCore s, resetCore_responses s⟩⟩

end Sys2Proof.Machine

/-! ## The decoder (30_encoding.md section 2) -/

namespace Sys2Proof

/-! ### Rows (R65, R68) -/

/-- No two rows have the same `OP` and `SUB`. -/
theorem pattern_top_injective {r q : Row}
    (h : r.pattern.extractLsb' 24 8 = q.pattern.extractLsb' 24 8) : r = q := by
  have hall : ∀ r ∈ Row.all, ∀ q ∈ Row.all,
      r.pattern.extractLsb' 24 8 = q.pattern.extractLsb' 24 8 → r = q := by decide
  have hmem : ∀ r : Row, r ∈ Row.all := fun r => by cases r <;> decide
  exact hall r (hmem r) q (hmem q) h

/-- Settles O3: every mask covers `OP` and `SUB`, and these tell the rows apart. -/
theorem atMostOneRowMatchesAnyWord : Obligations.AtMostOneRowMatchesAnyWord := fun w r q hr hq =>
  pattern_top_injective ((fits_top r w hr).symm.trans (fits_top q w hq))

/-- `rowOf` finds exactly the row that matches. -/
theorem rowOf_eq_some_iff {r : Row} {w : EventWord} : rowOf w = some r ↔ r.fits w = true :=
  ⟨rowOf_some, fun h => rowOf_of_fits h fun _ hq => atMostOneRowMatchesAnyWord _ _ _ hq h⟩

/-- What the decoder accepts: a word that matches a row, with an operand string of the length the row requires. -/
theorem decodeEvent_eq_ok_iff {c : Config} {e : Event} {i : Instr} :
    decodeEvent c e = .ok i ↔
      ∃ r : Row, r.fits e.word = true ∧ operandLen c r e.word = some e.operand.length ∧ r.instr e = i := by
  simp only [← rowOf_eq_some_iff]
  unfold decodeEvent
  cases rowOf e.word with
  | none => simp
  | some r =>
    cases hn : operandLen c r e.word with
    | none => simp [hn]
    | some n =>
      by_cases h : e.operand.length = n
      · simp [hn, h]
      · simp [hn, h, Ne.symm h]

/-! ### Decoding an encoding (R63 to R65, R68) -/

/-- An instruction's word matches the row of the instruction. -/
theorem row_fits_encode (i : Instr) : i.row.fits (encode i).word = true := by
  cases i with
  | rxByte b t => exact Laws.EncodeRow.rxByte b t
  | txDone => exact Laws.EncodeRow.txDone
  | enqLs p => exact Laws.EncodeRow.enqLs p
  | enqUp p => exact Laws.EncodeRow.enqUp p
  | enqDn p => exact Laws.EncodeRow.enqDn p
  | qpend => exact Laws.EncodeRow.qpend
  | rdreg r => exact Laws.EncodeRow.rdreg r
  | crc8 p => exact Laws.EncodeRow.crc8 p
  | buildLs p => exact Laws.EncodeRow.buildLs p
  | buildUp p => exact Laws.EncodeRow.buildUp p
  | buildDn p => exact Laws.EncodeRow.buildDn p
  | classify p => exact Laws.EncodeRow.classify p
  | remap p => exact Laws.EncodeRow.remap p
  | reset => exact Laws.EncodeRow.reset

/-- The row's fields of an instruction's event are the instruction's operands. -/
theorem row_instr_encode (i : Instr) : i.row.instr (encode i) = i := by
  cases i with
  | rxByte b t => exact congrArg₂ Instr.rxByte (fieldB_rxByte b t) (fieldT_append _ t)
  | rdreg r => exact congrArg Instr.rdreg (fieldT_append _ r)
  | _ => rfl

/-- A length up to CAP fits in the field `N` and is read back from it. -/
theorem toNat_fieldN_append {c : Config} (x : BitVec 23) {n : Nat} (h : n ≤ c.cap) :
    (fieldN (x ++ BitVec.ofNat 9 n)).toNat = n := by
  have hcap := c.ok.1.2
  rw [fieldN_append, BitVec.toNat_ofNat, Nat.mod_eq_of_lt (by omega)]

/-- Well-formedness is the operand length the instruction's own word asks for (R64). -/
theorem operandLen_encode {c : Config} {i : Instr} (h : i.wellFormed c = true) :
    operandLen c i.row (encode i).word = some (encode i).operand.length := by
  cases i <;> simp only [Instr.wellFormed, Bool.and_eq_true, decide_eq_true_eq, beq_iff_eq] at h
  case crc8 p =>
    have hN : (fieldN (encode (.crc8 p)).word).toNat = p.length := toNat_fieldN_append _ h
    simp only [Instr.row, operandLen, hN, if_pos h]
    rfl
  case classify p =>
    have hN : (fieldN (encode (.classify p)).word).toNat = p.length := toNat_fieldN_append _ h.2
    simp only [Instr.row, operandLen, hN, if_pos h]
    rfl
  all_goals simp only [Instr.row, encode, operandLen, h, List.length_nil]

/-- Settles O1: the word finds its row, the row finds its operands. -/
theorem decodeEncodeEveryInstr : Obligations.DecodeEncodeEveryInstr := fun _ i h =>
  decodeEvent_eq_ok_iff.2 ⟨i.row, row_fits_encode i, operandLen_encode h, row_instr_encode i⟩

/-! ### Encoding what was decoded (R64, R65, R68) -/

/-- The operand length a row requires makes its instruction well-formed (R64). -/
theorem wellFormed_instr {c : Config} {r : Row} {e : Event}
    (h : operandLen c r e.word = some e.operand.length) : (r.instr e).wellFormed c = true := by
  cases r with
  | crc8 =>
    obtain ⟨hn, hlen⟩ := Option.ite_none_right_eq_some.1 h
    simp only [Row.instr, Instr.wellFormed, decide_eq_true_eq]
    exact Option.some.inj hlen ▸ hn
  | classify =>
    obtain ⟨hn, hlen⟩ := Option.ite_none_right_eq_some.1 h
    simp only [Row.instr, Instr.wellFormed, Bool.and_eq_true, decide_eq_true_eq]
    exact Option.some.inj hlen ▸ hn
  | _ => simp_all [Row.instr, Instr.wellFormed, operandLen]

/-- Where a row requires no operand string, there is none. -/
theorem operand_eq_nil {c : Config} {r : Row} {e : Event} (h0 : operandLen c r e.word = some 0)
    (h : operandLen c r e.word = some e.operand.length) : e.operand = [] :=
  List.length_eq_zero_iff.1 (Option.some.inj (h.symm.trans h0))

/-- The field `N` of an accepted event is the length of its operand string (R64, R74). -/
theorem ofNat_operand_length {c : Config} {r : Row} {e : Event} (hr : r = .crc8 ∨ r = .classify)
    (h : operandLen c r e.word = some e.operand.length) : BitVec.ofNat 9 e.operand.length = fieldN e.word := by
  obtain rfl | rfl := hr <;>
  · obtain ⟨-, hlen⟩ := Option.ite_none_right_eq_some.1 h
    rw [← Option.some.inj hlen, BitVec.ofNat_toNat, BitVec.setWidth_eq]

/-- The word of the instruction that an event decodes to, by what the row leaves free: nothing, `B` and `T`, `R`, or
`N`. -/
theorem encode_instr_word {c : Config} {r : Row} {e : Event} (hfit : r.fits e.word = true)
    (h : operandLen c r e.word = some e.operand.length) : (encode (r.instr e)).word = e.word := by
  cases r
  case rxByte =>
    have hw := word_of_fieldB e.word
    rwa [(fits_rxByte _).1 hfit] at hw
  case rdreg =>
    have hw := word_of_fieldT e.word
    rwa [(fits_rdreg _).1 hfit] at hw
  case crc8 =>
    have hw := word_of_fieldN e.word
    rwa [(fits_crc8 _).1 hfit, ← ofNat_operand_length (.inl rfl) h] at hw
  case classify =>
    have hw := word_of_fieldN e.word
    rwa [(fits_classify _).1 hfit, ← ofNat_operand_length (.inr rfl) h] at hw
  all_goals exact ((fits_whole _ (by decide) _).1 hfit).symm

/-- The operand string of the instruction that an event decodes to. -/
theorem encode_instr_operand {c : Config} {r : Row} {e : Event}
    (h : operandLen c r e.word = some e.operand.length) : (encode (r.instr e)).operand = e.operand := by
  cases r
  case rxByte | txDone | qpend | rdreg | reset => exact (operand_eq_nil rfl h).symm
  all_goals rfl

/-- Settles O2: what the row does not fix is kept in the instruction's operands. -/
theorem encodeDecodeEveryEvent : Obligations.EncodeDecodeEveryEvent := by
  intro c e i h
  obtain ⟨r, hfit, hlen, rfl⟩ := decodeEvent_eq_ok_iff.1 h
  exact ⟨wellFormed_instr hlen, congrArg₂ Event.mk (encode_instr_word hfit hlen) (encode_instr_operand hlen)⟩

end Sys2Proof

/-! ## Reserved events (30_encoding.md section 2) -/

namespace Sys2Proof

/-- `OP` and `SUB` of a row (R65). -/
def Row.opSub : Row → Nat × Nat
  | .rxByte   => (0x1, 0)
  | .txDone   => (0x2, 0)
  | .enqLs    => (0x3, 0)
  | .enqUp    => (0x3, 1)
  | .enqDn    => (0x3, 2)
  | .qpend    => (0x4, 0)
  | .rdreg    => (0x5, 0)
  | .crc8     => (0x8, 0)
  | .buildLs  => (0x9, 0)
  | .buildUp  => (0x9, 1)
  | .buildDn  => (0x9, 2)
  | .classify => (0xA, 0)
  | .remap    => (0xB, 0)
  | .reset    => (0xF, 0)

/-- No bit is set in a field the row does not use (R67). -/
def Row.unusedClear : Row → EventWord → Prop
  | .rxByte, _ => True
  | .rdreg, w => fieldB w = 0#8
  | .crc8, w | .classify, w => w.extractLsb' 9 15 = 0#15
  | _, w => w.extractLsb' 0 24 = 0#24

/-- A field of a word as digits of its number. -/
theorem toNat_field (w : EventWord) (start len : Nat) :
    (w.extractLsb' start len).toNat = w.toNat / 2 ^ start % 2 ^ len := by
  rw [BitVec.extractLsb'_toNat, Nat.shiftRight_eq_div_pow]

theorem field_eq_iff (w : EventWord) (start : Nat) {len : Nat} (v : BitVec len) :
    w.extractLsb' start len = v ↔ w.toNat / 2 ^ start % 2 ^ len = v.toNat := by
  rw [← BitVec.toNat_inj, toNat_field]

/-- A row matches exactly the words with its `OP` and `SUB` and nothing in the fields it does not use (R65, R68). -/
theorem fits_iff_fields (r : Row) (w : EventWord) :
    r.fits w = true ↔
      (fieldOp w).toNat = r.opSub.1 ∧ (fieldSub w).toNat = r.opSub.2 ∧ r.unusedClear w := by
  have hw := w.isLt
  cases r
  case rxByte =>
    simp only [fits_rxByte, Row.opSub, Row.unusedClear, fieldOp, fieldSub, toNat_field, field_eq_iff,
      BitVec.toNat_ofNat, and_true]
    omega
  case rdreg =>
    simp only [fits_rdreg, Row.opSub, Row.unusedClear, fieldOp, fieldSub, fieldB, toNat_field, field_eq_iff,
      BitVec.toNat_ofNat]
    omega
  case crc8 =>
    simp only [fits_crc8, Row.opSub, Row.unusedClear, fieldOp, fieldSub, toNat_field, field_eq_iff,
      BitVec.toNat_ofNat]
    omega
  case classify =>
    simp only [fits_classify, Row.opSub, Row.unusedClear, fieldOp, fieldSub, toNat_field, field_eq_iff,
      BitVec.toNat_ofNat]
    omega
  all_goals
    rw [fits_whole _ (by decide), ← BitVec.toNat_inj]
    simp only [Row.pattern, BitVec.ofNat_eq_ofNat, Row.opSub, Row.unusedClear, fieldOp, fieldSub, toNat_field,
      field_eq_iff, BitVec.toNat_ofNat, pow_zero, Nat.div_one]
    omega

open Machine

/-- For a word that matches a row, only `N` and the operand string can still be wrong (R67). -/
theorem isReservedEvent_of_fits {c : Config} {r : Row} {e : Event} (h : r.fits e.word = true) :
    isReservedEvent c e ↔ operandLen c r e.word ≠ some e.operand.length := by
  obtain ⟨hop, hsub, hclear⟩ := (fits_iff_fields r e.word).1 h
  cases r <;> simp only [Row.opSub, Row.unusedClear] at hop hsub hclear
  case crc8 =>
    have hres : isReservedEvent c e ↔
        c.cap < (fieldN e.word).toNat ∨ e.operand.length ≠ (fieldN e.word).toNat := by
      simp [isReservedEvent, requiredLength, hop, hsub, hclear]
    simp only [hres, operandLen, ne_eq, Option.ite_none_right_eq_some, Option.some.injEq]
    omega
  case classify =>
    have hres : isReservedEvent c e ↔ ((fieldN e.word).toNat < 3 ∨ c.cap < (fieldN e.word).toNat)
        ∨ e.operand.length ≠ (fieldN e.word).toNat := by
      simp [isReservedEvent, requiredLength, hop, hsub, hclear]
    simp only [hres, operandLen, ne_eq, Option.ite_none_right_eq_some, Option.some.injEq]
    omega
  all_goals simp [isReservedEvent, requiredLength, hop, hsub, hclear, operandLen, eq_comm]

/-- A word outside R67's list of fields matches a row: the one of its `OP` and `SUB`. -/
theorem exists_fits_of_not_isReservedEvent {c : Config} {e : Event} (h : ¬ isReservedEvent c e) :
    ∃ r : Row, r.fits e.word = true := by
  simp only [isReservedEvent, not_or, not_and, not_not, not_le] at h
  obtain ⟨hop, hsub3, hsub0, hrest, hB, hmid, -⟩ := h
  have hlt : (fieldOp e.word).toNat < 16 := (fieldOp e.word).isLt
  simp only [fits_iff_fields]
  generalize (fieldOp e.word).toNat = op at *
  generalize (fieldSub e.word).toNat = sub at *
  have hlisted : op = 1 ∨ op = 2 ∨ op = 3 ∨ op = 4 ∨ op = 5 ∨ op = 8 ∨ op = 9 ∨ op = 10 ∨ op = 11 ∨ op = 15 := by
    simp only [List.mem_cons, List.not_mem_nil, or_false, not_or] at hop
    omega
  obtain rfl | rfl | rfl | rfl | rfl | rfl | rfl | rfl | rfl | rfl := hlisted
  · exact ⟨.rxByte, rfl, hsub0 (by decide), trivial⟩
  · exact ⟨.txDone, rfl, hsub0 (by decide), hrest (by decide)⟩
  · have hlt3 := hsub3 (by decide)
    interval_cases sub
    · exact ⟨.enqLs, rfl, rfl, hrest (by decide)⟩
    · exact ⟨.enqUp, rfl, rfl, hrest (by decide)⟩
    · exact ⟨.enqDn, rfl, rfl, hrest (by decide)⟩
  · exact ⟨.qpend, rfl, hsub0 (by decide), hrest (by decide)⟩
  · exact ⟨.rdreg, rfl, hsub0 (by decide), hB rfl⟩
  · exact ⟨.crc8, rfl, hsub0 (by decide), hmid (by decide)⟩
  · have hlt3 := hsub3 (by decide)
    interval_cases sub
    · exact ⟨.buildLs, rfl, rfl, hrest (by decide)⟩
    · exact ⟨.buildUp, rfl, rfl, hrest (by decide)⟩
    · exact ⟨.buildDn, rfl, rfl, hrest (by decide)⟩
  · exact ⟨.classify, rfl, hsub0 (by decide), hmid (by decide)⟩
  · exact ⟨.remap, rfl, hsub0 (by decide), hrest (by decide)⟩
  · exact ⟨.reset, rfl, hsub0 (by decide), hrest (by decide)⟩

/-- Settles O4: a reserved word matches no row; for the row of any other, the operand length decides. -/
theorem decoderRejectsExactlyReserved : Obligations.DecoderRejectsExactlyReserved := by
  intro c e
  have haccept : (∃ i, decodeEvent c e = .ok i) ↔ ¬ isReservedEvent c e := by
    simp only [decodeEvent_eq_ok_iff]
    constructor
    · rintro ⟨i, r, hfit, hlen, -⟩ hres
      exact (isReservedEvent_of_fits hfit).1 hres hlen
    · intro hres
      obtain ⟨r, hfit⟩ := exists_fits_of_not_isReservedEvent hres
      exact ⟨_, r, hfit, not_not.1 (mt (isReservedEvent_of_fits hfit).2 hres), rfl⟩
  rw [← not_iff_not, ← haccept]
  cases decodeEvent c e <;> simp

/-- Settles O5. -/
theorem sampleWordsDecode : Obligations.SampleWordsDecode := by
  unfold Obligations.SampleWordsDecode
  decide

end Sys2Proof

/-! ## What RX_BYTE does not read (10_state.md section 2, 40_frame_state_machine.md section 1) -/

namespace Sys2Proof.Machine

/-- `f` changes only what step 3 neither reads nor writes: it keeps `st`, `cnt` and `RXB`, and may as well be done after
a write to them or to `frame_rx` and `crc_ok`. -/
structure Step3Ignores (f : State → State) : Prop where
  st         : ∀ s, (f s).st = s.st
  cnt        : ∀ s, (f s).cnt = s.cnt
  rxb        : ∀ s, (f s).rxb = s.rxb
  setSt      : ∀ v s, (f s).setSt v = f (s.setSt v)
  setCnt     : ∀ v s, (f s).setCnt v = f (s.setCnt v)
  setRxb     : ∀ v s, (f s).setRxb v = f (s.setRxb v)
  setFrameRx : ∀ v s, (f s).setFrameRx v = f (s.setFrameRx v)
  setCrcOk   : ∀ v s, (f s).setCrcOk v = f (s.setCrcOk v)

/-- Step 3 ignores the time mark (R80, R82). -/
theorem step3Ignores_setLastT (t : U16) : Step3Ignores (State.setLastT t) :=
  ⟨fun _ => rfl, fun _ => rfl, fun _ => rfl, fun _ _ => rfl, fun _ _ => rfl, fun _ _ => rfl, fun _ _ => rfl,
    fun _ _ => rfl⟩

/-- Step 3 ignores TXB (R25). -/
theorem step3Ignores_setTxb (m : Memory) : Step3Ignores (State.setTxb m) :=
  ⟨fun _ => rfl, fun _ => rfl, fun _ => rfl, fun _ _ => rfl, fun _ _ => rfl, fun _ _ => rfl, fun _ _ => rfl,
    fun _ _ => rfl⟩

/-- Step 3 ignores the events that wait (log entry 1). -/
theorem step3Ignores_setEvents (es : List Event) : Step3Ignores (State.setEvents es) :=
  ⟨fun _ => rfl, fun _ => rfl, fun _ => rfl, fun _ _ => rfl, fun _ _ => rfl, fun _ _ => rfl, fun _ _ => rfl,
    fun _ _ => rfl⟩

namespace Step3Ignores

variable {f : State → State} (hf : Step3Ignores f)
include hf

theorem pushRxb (c : Config) (b : Byte) (s : State) : (f s).pushRxb c b = f (s.pushRxb c b) := by
  simp only [State.pushRxb, hf.rxb, hf.cnt, hf.setRxb, hf.setCnt]

theorem startFrame (c : Config) (b : Byte) (s : State) : startFrame c b (f s) = f (startFrame c b s) := by
  simp only [Machine.startFrame, hf.setCnt, hf.pushRxb, hf.setFrameRx, hf.setCrcOk, hf.setSt]

theorem storeCrcByte (c : Config) (b : Byte) (s : State) : storeCrcByte c b (f s) = f (storeCrcByte c b s) := by
  simp only [Machine.storeCrcByte, hf.pushRxb, hf.setFrameRx]

theorem readRxb (c : Config) (s : State) (a n : Nat) : readRxb c (f s) a n = readRxb c s a n := by
  rw [Machine.readRxb, hf.rxb, Machine.readRxb]

theorem rxL (s : State) : (f s).rxL = s.rxL := by
  rw [State.rxL, hf.rxb, State.rxL]

theorem rxIdle (c : Config) (b : Byte) (w : Work) : rxIdle c b (w.upd f) = (rxIdle c b w).upd f := by
  by_cases h : b = c.addrIn
  · rw [rxIdle_address h, rxIdle_address h]
    exact congrArg (Work.mk · w.r) (hf.startFrame c b w.s)
  · rw [rxIdle_other h, rxIdle_other h]
    rfl

theorem checkLength (c : Config) (b : Byte) (w : Work) :
    checkLength c b (w.upd f) = (checkLength c b w).upd f := by
  unfold Machine.checkLength
  split
  · exact congrArg (Work.mk · _) (hf.setSt _ w.s)
  · exact congrArg (Work.mk · _) (hf.setSt _ w.s)

theorem checkPayload (w : Work) : checkPayload (w.upd f) = (checkPayload w).upd f := by
  simp only [Machine.checkPayload, Work.upd_s, hf.rxL, hf.cnt]
  split
  · exact congrArg (Work.mk · _) (hf.setSt _ w.s)
  · rfl

theorem upd_pushRxb (c : Config) (b : Byte) (w : Work) :
    (w.upd f).upd (State.pushRxb c b) = (w.upd (State.pushRxb c b)).upd f :=
  congrArg (Work.mk · _) (hf.pushRxb c b w.s)

theorem rxCrc (c : Config) (b : Byte) (w : Work) : rxCrc c b (w.upd f) = (rxCrc c b w).upd f := by
  have hs : (Machine.rxCrc c b (w.upd f)).s = f (Machine.rxCrc c b w).s := by
    simp only [rxCrc_s, Work.upd_s, hf.storeCrcByte, hf.readRxb, hf.rxL, hf.setCrcOk, hf.setSt]
  have hr : (Machine.rxCrc c b (w.upd f)).r = (Machine.rxCrc c b w).r := by
    simp only [rxCrc_r, Work.upd_s, Work.upd_r, hf.storeCrcByte, hf.readRxb, hf.rxL, hf.cnt]
  exact congrArg₂ Work.mk hs hr

/-- Step 3 does the same before `f` and after it. -/
theorem rxStep3 (c : Config) (b : Byte) (w : Work) : rxStep3 c b (w.upd f) = (rxStep3 c b w).upd f := by
  unfold Machine.rxStep3
  rw [Work.upd_s, hf.st]
  cases w.s.st with
  | idle => exact hf.rxIdle c b w
  | receivingLength => simp only [rxLength, hf.upd_pushRxb, hf.checkLength]
  | receivingPayload => simp only [rxPayload, hf.upd_pushRxb, hf.checkPayload]
  | receivingCrc => exact hf.rxCrc c b w
  | transmitPending => rfl
  | transmitting => rfl

end Step3Ignores

/-- `f` changes only what step 4 neither reads nor writes. -/
structure Step4Ignores (f : State → State) : Prop where
  st       : ∀ s, (f s).st = s.st
  txb      : ∀ s, (f s).txb = s.txb
  txLen    : ∀ s, (f s).txLen = s.txLen
  setSt    : ∀ v s, (f s).setSt v = f (s.setSt v)
  setTxEn  : ∀ v s, (f s).setTxEn v = f (s.setTxEn v)
  setTxLen : ∀ v s, (f s).setTxLen v = f (s.setTxLen v)

/-- Step 4 ignores the time mark. -/
theorem step4Ignores_setLastT (t : U16) : Step4Ignores (State.setLastT t) :=
  ⟨fun _ => rfl, fun _ => rfl, fun _ => rfl, fun _ _ => rfl, fun _ _ => rfl, fun _ _ => rfl⟩

/-- Step 4 ignores the events that wait. -/
theorem step4Ignores_setEvents (es : List Event) : Step4Ignores (State.setEvents es) :=
  ⟨fun _ => rfl, fun _ => rfl, fun _ => rfl, fun _ _ => rfl, fun _ _ => rfl, fun _ _ => rfl⟩

/-- Step 4 does the same before `f` and after it. -/
theorem Step4Ignores.turnaround {f : State → State} (hf : Step4Ignores f) (c : Config) (w : Work) :
    turnaround c (w.upd f) = (turnaround c w).upd f := by
  have hst : (w.upd f).s.st = w.s.st := hf.st w.s
  have hlen : (w.upd f).s.txLen = w.s.txLen := hf.txLen w.s
  by_cases h : w.s.st = .transmitPending
  · by_cases hq : w.s.txLen = 0
    · rw [turnaround_empty h hq, turnaround_empty (hst.trans h) (hlen.trans hq)]
      exact congrArg (Work.mk · w.r) (hf.setSt _ w.s)
    · rw [turnaround_queued h hq, turnaround_queued (hst.trans h) (hlen ▸ hq)]
      simp only [startTransmission, Work.upd, readTxb, hf.txb, hf.txLen, hf.setTxEn, hf.setTxLen, hf.setSt]
      rfl
  · rw [turnaround_other c w h, turnaround_other c _ (hst ▸ h)]

/-- Step 1 by the outcome of its check. -/
theorem rxTimeout_eq_cond (c : Config) (t : U16) (w : Work) :
    rxTimeout c t w = bif timedOut c t w.s then (w.upd (State.setSt .idle)).flag diagTimeoutAbort else w := by
  unfold rxTimeout
  cases timedOut c t w.s <;> rfl

/-- Steps 1 and 2 when both times are shifted alike: the timeout fires alike, only the recorded mark differs (R99). -/
theorem rxTimestamp_shift (c : Config) (t k : U16) (s : State) :
    rxTimestamp (t + k) (rxTimeout c (t + k) (Work.begin { s with lastT := s.lastT + k }))
      = (rxTimestamp t (rxTimeout c t (Work.begin s))).upd (State.setLastT (t + k)) := by
  have hto : timedOut c (t + k) { s with lastT := s.lastT + k } = timedOut c t s := by
    have he : elapsed c (t + k) { s with lastT := s.lastT + k } = elapsed c t s := by
      simp only [elapsed, add_sub_add_right_eq_sub]
    rw [timedOut, he, timedOut]
  simp only [rxTimeout_eq_cond, Work.begin_s, hto]
  cases timedOut c t s <;> rfl

/-- Settles O36: steps 3 and 4 do not read the mark that steps 1 and 2 leave. -/
theorem onlyElapsedTimeCounts : Obligations.OnlyElapsedTimeCounts := by
  intro c b t k s
  rw [rxByte, rxTimestamp_shift, (step3Ignores_setLastT _).rxStep3, (step4Ignores_setLastT _).turnaround]
  rfl

/-- RX_BYTE ignores the events that wait (log entry 1). -/
theorem rxByte_setEvents (c : Config) (b : Byte) (t : U16) (es : List Event) (s : State) :
    rxByte c b t (s.setEvents es) = (rxByte c b t s).setEvents es := by
  have hw : rxTimestamp t (rxTimeout c t (Work.begin (s.setEvents es)))
      = (rxTimestamp t (rxTimeout c t (Work.begin s))).upd (State.setEvents es) := by
    have hto : timedOut c t (s.setEvents es) = timedOut c t s := rfl
    simp only [rxTimeout_eq_cond, Work.begin_s, hto]
    cases timedOut c t s <;> rfl
  rw [rxByte, hw, (step3Ignores_setEvents es).rxStep3, (step4Ignores_setEvents es).turnaround]
  rfl

@[simp] theorem rxByte_events (c : Config) (b : Byte) (t : U16) (s : State) : (rxByte c b t s).events = s.events :=
  (congrArg State.events (rxByte_setEvents c b t s.events s) :)

/-- What step 4 does with another TXB: the same, but for the burst (R90). -/
theorem turnaround_setTxb (c : Config) (m : Memory) (w : Work) :
    (turnaround c (w.upd (State.setTxb m))).s = (turnaround c w).s.setTxb m
    ∧ { (turnaround c (w.upd (State.setTxb m))).r with burst := (turnaround c w).r.burst } = (turnaround c w).r := by
  by_cases h : w.s.st = .transmitPending
  · by_cases hq : w.s.txLen = 0
    · rw [turnaround_empty h hq, turnaround_empty (w := w.upd (State.setTxb m)) h hq]
      exact ⟨rfl, rfl⟩
    · rw [turnaround_queued h hq, turnaround_queued (w := w.upd (State.setTxb m)) h hq]
      exact ⟨rfl, rfl⟩
  · rw [turnaround_other c w h, turnaround_other c (w.upd (State.setTxb m)) h]
    exact ⟨rfl, rfl⟩

/-- The whole of RX_BYTE with another TXB. -/
theorem rxWork_setTxb (c : Config) (b : Byte) (t : U16) (m : Memory) (s : State) :
    (rxWork c b t (s.setTxb m)).s = (rxWork c b t s).s.setTxb m
    ∧ { (rxWork c b t (s.setTxb m)).r with burst := (rxWork c b t s).r.burst } = (rxWork c b t s).r := by
  have hw : rxTimestamp t (rxTimeout c t (Work.begin (s.setTxb m)))
      = (rxTimestamp t (rxTimeout c t (Work.begin s))).upd (State.setTxb m) := by
    have hto : timedOut c t (s.setTxb m) = timedOut c t s := rfl
    simp only [rxTimeout_eq_cond, Work.begin_s, hto]
    cases timedOut c t s <;> rfl
  unfold rxWork
  rw [hw, (step3Ignores_setTxb m).rxStep3]
  exact turnaround_setTxb c m _

/-- Settles O41: steps 1 to 3 do not read TXB, and step 4 reads it for the burst alone. -/
theorem txbPlaysNoPartInReception : Obligations.TxbPlaysNoPartInReception := by
  rintro c b t s _ _ m rfl rfl
  obtain ⟨hs, hr⟩ := rxWork_setTxb c b t m s
  refine ⟨_, _, rxByte_responses c b t s, rxByte_responses c b t (s.setTxb m), ?_, hr⟩
  have hv : rxByte c b t { s with txb := m } = ((rxWork c b t s).s.setTxb m).respond (rxWork c b t (s.setTxb m)).r := by
    rw [← hs]
    exact rxByte_eq_respond c b t (s.setTxb m)
  rw [hv, ← (rxByte_buffers c b t s).1]
  rfl

/-- Settles O12: in IDLE there is no timeout to check, and step 2 overwrites the mark. -/
theorem rxByteInIdleIgnoresTimeMark : Obligations.RxByteInIdleIgnoresTimeMark := by
  intro c b t u s hs
  have hst : stamped t { s with lastT := u } = stamped t s := rfl
  rw [rxByte_idle hs, rxByte_idle (s := { s with lastT := u }) hs, hst]

end Sys2Proof.Machine

/-! ## What an operation and a step can do (30_encoding.md section 2, 70_reset_and_hazards.md section 3) -/

namespace Sys2Proof

/-- The instruction that enqueues a frame of this kind (R131 to R133). -/
def Kind.enqInstr : Kind → List Byte → Instr
  | .ls => .enqLs
  | .up => .enqUp
  | .dn => .enqDn

end Sys2Proof

namespace Sys2Proof.Machine

/-- The state an accepted enqueue leaves (R130). -/
def enqueued (c : Config) (k : Kind) (p : List Byte) (s : State) : State :=
  { s with txb := s.txb.writeRange 0 (buildFrame c k p), txLen := BitVec.ofNat 9 (buildFrame c k p).length,
           responses := s.responses ++ [{ ack := true }] }

/-- The length that an accepted enqueue queues, as a number: it fits in `tx_len` (R9, R26). -/
theorem enqueued_txLen {c : Config} {k : Kind} {p : List Byte} (hp : p.length = c.psize k) (s : State) :
    (enqueued c k p s).txLen.toNat = c.psize k + 4 := by
  have hcap := c.ok.1.2
  have hk := psize_le c k
  rw [enqueued, length_buildFrame, hp, BitVec.toNat_ofNat, Nat.mod_eq_of_lt (by omega)]

/-- A response without channels and without a transmission, and with no flag that RX_BYTE or TX_DONE raises. -/
structure Response.Quiet (r : Response) : Prop where
  dec   : r.dec = .noTransmission
  burst : r.burst = []
  chan  : r.chan = none
  diag  : r.diag = 0 ∨ r.diag = diagEnqDropped ∨ r.diag = diagReservedEvent

/-- All an operation can do: it is one of the four that change the core, or it answers and changes nothing. -/
inductive Performs (c : Config) (s : State) : Instr → State → Prop
  | rxByte (b : Byte) (t : U16) : Performs c s (.rxByte b t) (rxByte c b t s)
  | txDone : Performs c s .txDone (txDone s)
  | reset : Performs c s .reset (resetCore s)
  | enqueue {k : Kind} {p : List Byte} (hp : p.length = c.psize k) (hq : s.txLen = 0) :
      Performs c s (k.enqInstr p) (enqueued c k p s)
  | answer {i : Instr} {r : Response} (hr : r.Quiet) : Performs c s i (s.respond r)

theorem performs_reserved (c : Config) (i : Instr) (s : State) : Performs c s i (reservedEvent s) :=
  .answer ⟨rfl, rfl, rfl, .inr (.inr rfl)⟩

/-- An operation that returns a value, with its operand check (R64, R124). -/
theorem performs_returnValue (c : Config) (i : Instr) (ok : Bool) (v : Value) (s : State) :
    Performs c s i (withOperand ok s (returnValue v)) := by
  cases ok with
  | true => exact .answer ⟨rfl, rfl, rfl, .inl rfl⟩
  | false => exact performs_reserved c i s

/-- An enqueue, accepted or dropped, with its operand check (R64, R130). -/
theorem performs_enqEvent (c : Config) (k : Kind) (p : List Byte) (s : State) :
    Performs c s (k.enqInstr p) (enqEvent c k p s) := by
  by_cases hp : p.length = c.psize k
  · rw [enqEvent_ok hp]
    by_cases hq : s.txLen = 0
    · rw [enqueue_empty hq]
      exact .enqueue hp hq
    · rw [enqueue_pending hq]
      exact .answer ⟨rfl, rfl, rfl, .inr (.inl rfl)⟩
  · rw [enqEvent, withOperand_reserved (beq_eq_false_iff_ne.2 hp)]
    exact performs_reserved c _ s

theorem performs_rdreg (c : Config) (r : U16) (s : State) : Performs c s (.rdreg r) (rdreg c r s) := by
  rw [rdreg_eq]
  refine .answer ⟨rfl, rfl, rfl, ?_⟩
  dsimp only
  split
  · exact .inl rfl
  · exact .inr (.inr rfl)

/-- Every operation does what `Performs` lists. -/
theorem performs (c : Config) (i : Instr) (s : State) : Performs c s i (perform c i s) := by
  cases i with
  | rxByte b t => exact .rxByte b t
  | txDone => exact .txDone
  | enqLs p => exact performs_enqEvent c .ls p s
  | enqUp p => exact performs_enqEvent c .up p s
  | enqDn p => exact performs_enqEvent c .dn p s
  | qpend => exact performs_returnValue c _ true _ s
  | rdreg r => exact performs_rdreg c r s
  | crc8 p => exact performs_returnValue ..
  | buildLs p => exact performs_returnValue ..
  | buildUp p => exact performs_returnValue ..
  | buildDn p => exact performs_returnValue ..
  | classify p => exact performs_returnValue ..
  | remap p => exact performs_returnValue ..
  | reset => exact .reset

/-- The same on the chip (R8). -/
theorem performs_of_exec {i : Instr} {s t : State} (h : exec i s = .next t) : Performs Config.chip s i t := by
  rw [exec_eq_perform, Host.Outcome.next.injEq] at h
  exact h ▸ performs Config.chip i s

/-- Every operation leaves the waiting events alone and is answered by one response. -/
theorem Performs.answers {c : Config} {i : Instr} {s t : State} (h : Performs c s i t) :
    t.events = s.events ∧ ∃ r, t.responses = s.responses ++ [r] := by
  cases h with
  | rxByte b u => exact ⟨rxByte_events c b u s, _, rxByte_responses c b u s⟩
  | txDone => exact ⟨rfl, _, rfl⟩
  | reset => exact ⟨rfl, _, rfl⟩
  | enqueue => exact ⟨rfl, _, rfl⟩
  | answer => exact ⟨rfl, _, rfl⟩

/-! ### The step -/

/-- A step with an event waiting, by whether it decodes (R48, R67). -/
theorem advance_cons {c : Config} {s : State} {e : Event} {rest : List Event} (h : s.events = e :: rest) :
    (∃ i, decodeEvent c e = .ok i ∧ advance c s = perform c i (s.setEvents rest))
    ∨ ∃ r, decodeEvent c e = .error r ∧ advance c s = reservedEvent (s.setEvents rest) := by
  cases hd : decodeEvent c e with
  | ok i => exact .inl ⟨i, rfl, by simp only [advance, takeEvent_cons h, hd]⟩
  | error r => exact .inr ⟨r, rfl, by simp only [advance, takeEvent_cons h, hd]⟩

theorem advance_nil {c : Config} {s : State} (h : s.events = []) : advance c s = s := by
  rw [advance, takeEvent_nil h]

/-- With an event waiting, a step does what some operation can do to the state without that event; a reserved event does
what an operation with a bad operand does. -/
theorem advance_performs {c : Config} {s : State} {e : Event} {rest : List Event} (h : s.events = e :: rest) :
    ∃ i, Performs c (s.setEvents rest) i (advance c s) := by
  obtain ⟨i, -, ha⟩ | ⟨r, -, ha⟩ := advance_cons (c := c) h
  · exact ⟨i, ha ▸ performs c i _⟩
  · exact ⟨.qpend, ha ▸ performs_reserved c _ _⟩

/-- What every operation keeps, and what does not speak of the waiting events, every step keeps. -/
theorem advance_keeps {c : Config} {P : State → Prop} (hevents : ∀ s es, P s → P (s.setEvents es))
    (hperforms : ∀ {s i t}, P s → Performs c s i t → P t) {s : State} (h : P s) : P (advance c s) := by
  cases hev : s.events with
  | nil => rwa [advance_nil hev]
  | cons e rest =>
    obtain ⟨i, hp⟩ := advance_performs (c := c) hev
    exact hperforms (hevents s rest h) hp

/-- A step takes one event off the list and adds one response. -/
theorem advance_answers {c : Config} {s : State} {e : Event} {rest : List Event} (h : s.events = e :: rest) :
    (advance c s).events = rest ∧ ∃ r, (advance c s).responses = s.responses ++ [r] := by
  obtain ⟨i, hp⟩ := advance_performs (c := c) h
  exact hp.answers

/-- Settles O9. -/
theorem everyEventAnsweredOnce : Obligations.EveryEventAnsweredOnce := by
  intro s t e rest h hstep
  rw [step_eq_advance, Host.Outcome.next.injEq] at hstep
  exact hstep ▸ advance_answers h

/-- Settles O6. -/
theorem stepRunsDeliveredEvent : Obligations.StepRunsDeliveredEvent := by
  intro s e rest i h hd
  simp only [step, takeEvent_cons h, hd]
  rfl

/-- Settles O7. -/
theorem stepWithoutEventChangesNothing : Obligations.StepWithoutEventChangesNothing := fun s h => by
  rw [step_eq_advance, advance_nil h]

/-- Settles O8: a reserved event does not decode. -/
theorem reservedEventChangesNoState : Obligations.ReservedEventChangesNoState := by
  intro s e rest h hres
  obtain ⟨r, hd⟩ := (decoderRejectsExactlyReserved Config.chip e).2 hres
  simp only [step, takeEvent_cons h, decode, hd]
  rfl

/-- Settles O48: the operations with an operand string check its length first. -/
theorem wrongOperandLengthIsReserved : Obligations.WrongOperandLengthIsReserved := by
  intro i s h
  rw [exec_eq_perform]
  refine congrArg Host.Outcome.next ?_
  cases i with
  | rxByte | txDone | qpend | rdreg | reset => cases h
  | enqLs | enqUp | enqDn | crc8 | buildLs | buildUp | buildDn | classify | remap => exact withOperand_reserved h

/-- Settles O50. -/
theorem crcEventReturnsCrc : Obligations.CrcEventReturnsCrc := fun _ s hp =>
  congrArg Host.Outcome.next (withOperand_ok (s := s) (decide_eq_true hp))

end Sys2Proof.Machine

/-! ## RX_BYTE in every state: the queue, the buffers, the diagnostic bits -/

namespace Sys2Proof.Machine

/-! ### The queue and the burst (R90 to R92) -/

/-- What steps 1 to 3 leave alone: the queue, and the part of the response that step 4 fills in. -/
structure KeepsQueue (w v : Work) : Prop where
  txb   : v.s.txb = w.s.txb
  txLen : v.s.txLen = w.s.txLen
  dec   : v.r.dec = w.r.dec
  burst : v.r.burst = w.r.burst

theorem rxStep3_keepsQueue (c : Config) (b : Byte) (w : Work) : KeepsQueue w (rxStep3 c b w) := by
  unfold rxStep3
  cases w.s.st with
  | idle =>
    simp only [rxIdle]
    split <;> exact ⟨rfl, rfl, rfl, rfl⟩
  | receivingLength =>
    simp only [rxLength, checkLength]
    split <;> exact ⟨rfl, rfl, rfl, rfl⟩
  | receivingPayload =>
    simp only [rxPayload, checkPayload]
    split <;> exact ⟨rfl, rfl, rfl, rfl⟩
  | receivingCrc => exact ⟨rxCrc_txb c b w, rxCrc_txLen c b w, by rw [rxCrc_r], by rw [rxCrc_r]⟩
  | transmitPending => exact ⟨rfl, rfl, rfl, rfl⟩
  | transmitting => exact ⟨rfl, rfl, rfl, rfl⟩

/-- The event in progress before step 3. -/
def rxEntered (c : Config) (t : U16) (s : State) : Work := rxTimestamp t (rxTimeout c t (Work.begin s))

theorem rxWork_eq (c : Config) (b : Byte) (t : U16) (s : State) :
    rxWork c b t s = turnaround c (rxStep3 c b (rxEntered c t s)) := rfl

theorem rxEntered_timedOut {c : Config} {t : U16} {s : State} (h : timedOut c t s = true) :
    rxEntered c t s = { s := (s.setSt .idle).setLastT t, r := { diag := diagTimeoutAbort } } := by
  rw [rxEntered, rxTimeout_eq_cond, Work.begin_s, h]
  simp [Work.begin, Work.upd, Work.flag, rxTimestamp]

theorem rxEntered_inTime {c : Config} {t : U16} {s : State} (h : timedOut c t s = false) :
    rxEntered c t s = stamped t s := by
  rw [rxEntered, rxTimeout_eq_cond, Work.begin_s, h]
  rfl

theorem rxEntered_keepsQueue (c : Config) (t : U16) (s : State) : KeepsQueue (Work.begin s) (rxEntered c t s) := by
  cases h : timedOut c t s with
  | true => rw [rxEntered_timedOut h]; exact ⟨rfl, rfl, rfl, rfl⟩
  | false => rw [rxEntered_inTime h]; exact ⟨rfl, rfl, rfl, rfl⟩

/-- All RX_BYTE can do to the queue, in every state: nothing, or hand all of it to the transport with START. -/
theorem rxWork_queue (c : Config) (b : Byte) (t : U16) (s : State) :
    ((rxWork c b t s).s.txLen = s.txLen ∧ (rxWork c b t s).r.dec = .noTransmission ∧ (rxWork c b t s).r.burst = [])
    ∨ (s.txLen ≠ 0 ∧ (rxWork c b t s).s.txLen = 0 ∧ (rxWork c b t s).r.dec = .start
        ∧ (rxWork c b t s).r.burst = readTxb c s 0 s.txLen.toNat) := by
  obtain ⟨htxb, htxLen, hdec, hburst⟩ := rxEntered_keepsQueue c t s
  obtain ⟨htxb', htxLen', hdec', hburst'⟩ := rxStep3_keepsQueue c b (rxEntered c t s)
  replace htxb := htxb'.trans htxb
  replace htxLen := htxLen'.trans htxLen
  rw [rxWork_eq]
  generalize rxStep3 c b (rxEntered c t s) = w at *
  by_cases h : w.s.st = .transmitPending
  · by_cases hq : w.s.txLen = 0
    · rw [turnaround_empty h hq]
      exact .inl ⟨htxLen, hdec'.trans hdec, hburst'.trans hburst⟩
    · rw [turnaround_queued h hq]
      refine .inr ⟨fun hz => hq (htxLen.trans hz), rfl, rfl, ?_⟩
      rw [startTransmission_r, readTxb, htxb, htxLen]
      rfl
  · rw [turnaround_other c w h]
    exact .inl ⟨htxLen, hdec'.trans hdec, hburst'.trans hburst⟩

theorem rxByte_txb (c : Config) (b : Byte) (t : U16) (s : State) : (rxByte c b t s).txb = s.txb :=
  (rxByte_buffers c b t s).1

/-- Settles O46: RX_BYTE alone takes from the queue, and takes all of it. -/
theorem queuedFrameStaysUntilSentOrReset : Obligations.QueuedFrameStaysUntilSentOrReset := by
  intro i s t hi hq hexec
  cases performs_of_exec hexec with
  | rxByte b u =>
    obtain ⟨hlen, -, -⟩ | ⟨-, hlen, hdec, hburst⟩ := rxWork_queue Config.chip b u s
    · exact .inl ⟨hlen, rxByte_txb _ b u s⟩
    · refine .inr (.inr ⟨_, rxByte_responses _ b u s, hdec, ?_, hlen, rxByte_txb _ b u s⟩)
      rw [hburst, readTxb_eq (by have := hi.txLen_le; omega)]
  | txDone => exact .inl ⟨rfl, rfl⟩
  | reset => exact .inr (.inl rfl)
  | enqueue _ hempty => exact absurd hempty hq
  | answer => exact .inl ⟨rfl, rfl⟩

/-! ### The queue holds built frames (R36, R114, R130) -/

/-- A built frame fits in TXB (R9), and nothing but the empty string has no byte. -/
theorem isBuilt.length_le {c : Config} {f : List Byte} (h : isBuilt c f) : f.length ≤ c.cap := by
  obtain rfl | ⟨k, p, hp, rfl⟩ := h
  · exact Nat.zero_le _
  · have := psize_le c k
    rw [length_buildFrame]
    omega

/-- One more response whose burst is empty without START, or a non-empty built frame with it. -/
theorem bursts_append {c : Config} {rs : List Response} {r : Response}
    (h : ∀ q ∈ rs, isBuilt c q.burst ∧ (q.dec = .start ↔ q.burst ≠ []))
    (hr : (r.dec = .noTransmission ∧ r.burst = []) ∨ (r.dec = .start ∧ r.burst ≠ [] ∧ isBuilt c r.burst)) :
    ∀ q ∈ rs ++ [r], isBuilt c q.burst ∧ (q.dec = .start ↔ q.burst ≠ []) := by
  intro q hq
  obtain hq | hq := List.mem_append.1 hq
  · exact h q hq
  · rw [List.mem_singleton.1 hq]
    obtain ⟨hdec, hburst⟩ | ⟨hdec, hne, hbuilt⟩ := hr
    · exact ⟨.inl hburst, by simp [hdec, hburst]⟩
    · exact ⟨hbuilt, by simp [hdec, hne]⟩

/-- The queued bytes are read from inside TXB, so they are what RX_BYTE hands over. -/
theorem QueueInv.readTxb_eq {c : Config} {s : State} (hi : QueueInv c s) :
    readTxb c s 0 s.txLen.toNat = s.txb.readRange 0 s.txLen.toNat := by
  have hle := hi.queued.length_le
  rw [Memory.length_readRange] at hle
  exact Machine.readTxb_eq (by omega)

theorem QueueInv.rxByte {c : Config} {s : State} (hi : QueueInv c s) (b : Byte) (t : U16) :
    QueueInv c (rxByte c b t s) := by
  have htxb := rxByte_txb c b t s
  obtain ⟨hlen, hr⟩ | ⟨hq, hlen, hdec, hburst⟩ := rxWork_queue c b t s
  · refine ⟨?_, ?_⟩
    · rw [htxb, show (Machine.rxByte c b t s).txLen = s.txLen from hlen]
      exact hi.queued
    · rw [rxByte_responses]
      exact bursts_append hi.bursts (.inl hr)
  · rw [hi.readTxb_eq] at hburst
    refine ⟨?_, ?_⟩
    · rw [show (Machine.rxByte c b t s).txLen = 0 from hlen]
      exact .inl rfl
    · rw [rxByte_responses]
      refine bursts_append hi.bursts (.inr ⟨hdec, ?_, hburst ▸ hi.queued⟩)
      rw [hburst, ← List.length_pos_iff, Memory.length_readRange]
      exact Nat.pos_of_ne_zero fun h => hq (BitVec.eq_of_toNat_eq h)

/-- Every operation keeps the queue invariant. -/
theorem QueueInv.performs {c : Config} {i : Instr} {s t : State} (hi : QueueInv c s) (h : Performs c s i t) :
    QueueInv c t := by
  cases h with
  | rxByte b u => exact hi.rxByte b u
  | txDone => exact ⟨hi.queued, bursts_append hi.bursts (.inl ⟨rfl, rfl⟩)⟩
  | reset => exact ⟨.inl rfl, bursts_append hi.bursts (.inl ⟨rfl, rfl⟩)⟩
  | @enqueue k p hp hq =>
    refine ⟨.inr ⟨k, p, hp, ?_⟩, bursts_append hi.bursts (.inl ⟨rfl, rfl⟩)⟩
    rw [enqueued_txLen hp, ← hp, ← length_buildFrame c k p]
    exact Memory.readRange_writeRange s.txb 0 (buildFrame c k p)
  | answer hr => exact ⟨hi.queued, bursts_append hi.bursts (.inl ⟨hr.dec, hr.burst⟩)⟩

/-- Settles O18. -/
theorem everyStepKeepsQueueInv : Obligations.EveryStepKeepsQueueInv := by
  intro s t hi hstep
  rw [step_eq_advance, Host.Outcome.next.injEq] at hstep
  exact hstep ▸ advance_keeps (fun _ _ h => ⟨h.queued, h.bursts⟩) QueueInv.performs hi

/-! ### The buffers (R24, R25) -/

/-- A byte of RXB that RX_BYTE changes is the received one, at the index the cursor has just passed. -/
theorem rxByte_rxb_changed {c : Config} {b : Byte} {t : U16} {s : State} {a : Nat}
    (h : (rxByte c b t s).rxb.read a ≠ s.rxb.read a) :
    (rxByte c b t s).rxb.read a = b ∧ (rxByte c b t s).cnt.toNat = a + 1 ∧ a < c.cap := by
  obtain hrxb | ⟨x, hrxb, hcnt⟩ := (rxByte_buffers c b t s).2
  · exact absurd (by rw [hrxb]) h
  · rw [hrxb, Memory.read_store] at h
    by_cases ha : a = x.toNat ∧ x.toNat < c.cap
    · obtain ⟨rfl, hx⟩ := ha
      rw [hrxb, Memory.read_store, if_pos ⟨rfl, hx⟩, hcnt, count_succ hx]
      exact ⟨rfl, rfl, hx⟩
    · exact absurd (if_neg ha) h

/-- A byte of TXB that an accepted enqueue changes lies in the queued frame. -/
theorem enqueued_txb_changed {c : Config} {k : Kind} {p : List Byte} (hp : p.length = c.psize k) {s : State} {a : Nat}
    (h : (enqueued c k p s).txb.read a ≠ s.txb.read a) : a < (enqueued c k p s).txLen.toNat := by
  rw [enqueued_txLen hp, ← hp, ← length_buildFrame c k p]
  by_contra hge
  exact h ((Memory.read_writeRange_zero s.txb _ a).trans (if_neg hge))

/-- Settles O34, operation by operation. -/
theorem onlyTheirEventsWriteTheBuffers : Obligations.OnlyTheirEventsWriteTheBuffers := by
  intro i s t hexec
  cases performs_of_exec hexec with
  | rxByte b u =>
    exact ⟨fun a h => .inr ⟨b, u, rfl, rxByte_rxb_changed h⟩, fun a h => absurd (by rw [rxByte_txb]) h⟩
  | txDone => exact ⟨fun _ h => absurd rfl h, fun _ h => absurd rfl h⟩
  | reset => exact ⟨fun _ _ => .inl rfl, fun _ _ => .inl rfl⟩
  | @enqueue k p hp hq =>
    refine ⟨fun _ h => absurd rfl h, fun a h => .inr ⟨hq, enqueued_txb_changed hp h, p, ?_⟩⟩
    cases k with
    | ls => exact .inl rfl
    | up => exact .inr (.inl rfl)
    | dn => exact .inr (.inr rfl)
  | answer => exact ⟨fun _ h => absurd rfl h, fun _ h => absurd rfl h⟩

/-! ### The diagnostic bits (R141, R158) -/

/-- Step 3 adds at most one flag, and in IDLE no other than ADDR_DISCARD. -/
theorem rxStep3_diag (c : Config) (b : Byte) (w : Work) :
    ∃ d, (rxStep3 c b w).r.diag = w.r.diag ||| d
      ∧ (d ∈ [0, diagAddrDiscard]
        ∨ w.s.st ≠ .idle ∧ d ∈ [diagLenReject, diagCrcMismatch, diagByteIgnoredTx]) := by
  unfold rxStep3
  cases w.s.st with
  | idle =>
    simp only [rxIdle]
    split
    · exact ⟨0, by simp, by simp⟩
    · exact ⟨diagAddrDiscard, rfl, by simp⟩
  | receivingLength =>
    simp only [rxLength, checkLength]
    split
    · exact ⟨0, by simp, by simp⟩
    · exact ⟨diagLenReject, rfl, by simp⟩
  | receivingPayload =>
    simp only [rxPayload, checkPayload]
    split <;> exact ⟨0, by simp, by simp⟩
  | receivingCrc =>
    simp only [rxCrc_r]
    split
    · exact ⟨0, by simp, by simp⟩
    · exact ⟨diagCrcMismatch, rfl, by simp⟩
  | transmitPending => exact ⟨diagByteIgnoredTx, rfl, by simp⟩
  | transmitting => exact ⟨diagByteIgnoredTx, rfl, by simp⟩

@[simp] theorem turnaround_diag (c : Config) (w : Work) : (turnaround c w).r.diag = w.r.diag := by
  unfold turnaround
  split
  · split <;> rfl
  · rfl

/-- The flags of an RX_BYTE (R158): at most one, or TIMEOUT_ABORT with ADDR_DISCARD, since after a timeout the byte is
handled in IDLE. -/
theorem rxWork_diag (c : Config) (b : Byte) (t : U16) (s : State) :
    (rxWork c b t s).r.diag ∈ [0x00, 0x01, 0x02, 0x03, 0x04, 0x08, 0x20] := by
  rw [rxWork_eq, turnaround_diag]
  obtain ⟨d, hd, hmem⟩ := rxStep3_diag c b (rxEntered c t s)
  rw [hd]
  cases h : timedOut c t s with
  | true =>
    have hall : ∀ d ∈ [0, diagAddrDiscard], diagTimeoutAbort ||| d ∈ [0x00, 0x01, 0x02, 0x03, 0x04, 0x08, 0x20] := by
      decide
    rw [rxEntered_timedOut h] at hmem ⊢
    exact hall d (hmem.resolve_right fun hst => hst.1 rfl)
  | false =>
    have hall : ∀ d, d ∈ [0, diagAddrDiscard] ∨ d ∈ [diagLenReject, diagCrcMismatch, diagByteIgnoredTx] →
        0 ||| d ∈ [0x00, 0x01, 0x02, 0x03, 0x04, 0x08, 0x20] := by decide
    rw [rxEntered_inTime h]
    exact hall d (hmem.imp_right And.right)

/-- Settles O40, operation by operation. -/
theorem diagBitsOfOneEvent : Obligations.DiagBitsOfOneEvent := by
  intro i s t hexec
  cases performs_of_exec hexec with
  | rxByte b u =>
    refine ⟨_, rxByte_responses _ b u s, ?_, fun _ => ⟨b, u, rfl⟩⟩
    have hsub : [0x00, 0x01, 0x02, 0x03, 0x04, 0x08, 0x20]
        ⊆ [0x00, 0x01, 0x02, 0x03, 0x04, 0x08, 0x10, 0x20, 0x40, (0x80 : Byte)] := by decide
    exact hsub (rxWork_diag _ b u s)
  | txDone =>
    refine ⟨_, rfl, ?_⟩
    dsimp only
    split <;> decide
  | reset => exact ⟨_, rfl, by decide⟩
  | enqueue => exact ⟨_, rfl, List.mem_cons_self, fun h => absurd h (by decide)⟩
  | @answer _ r hr =>
    have hall : ∀ d : Byte, d = 0 ∨ d = diagEnqDropped ∨ d = diagReservedEvent →
        d ∈ [0x00, 0x01, 0x02, 0x03, 0x04, 0x08, 0x10, 0x20, 0x40, (0x80 : Byte)] ∧ d ≠ 0x03 := by decide
    obtain ⟨hmem, hne⟩ := hall r.diag hr.diag
    exact ⟨r, rfl, hmem, fun h => absurd h hne⟩

/-! ### Recovery, and the unreachable state (R89, R98, R140) -/

/-- Settles O15: exec and step are total functions, and a byte that opens no frame leaves IDLE in IDLE, also after a
timeout. -/
theorem noEventFaults : Obligations.NoEventFaults := by
  refine ⟨fun i s => ⟨_, exec_eq_perform i s⟩, fun s => ⟨_, step_eq_advance s⟩, fun b t s hb ht => ?_⟩
  refine ⟨_, exec_rxByte b t s, ?_⟩
  by_cases hs : s.st = .idle
  · rw [rxByte_idle hs, rxIdle_other hb]
    exact hs
  · rw [rxByte_timeout ((chip_timedOut_iff t s).2 ⟨hs, ht⟩), rxIdle_other hb]
    rfl

/-- Settles O23, by whether the byte is the address. -/
theorem timedOutByteIsFreshAddressByte : Obligations.TimedOutByteIsFreshAddressByte := by
  intro b t s hs ht
  rw [exec_rxByte, rxByte_timeout ((chip_timedOut_iff t s).2 ⟨hs, ht⟩)]
  split
  · next h =>
    refine ⟨s.rxb.store 128 0 b, fun a => by simp, ?_⟩
    rw [rxIdle_address h]
    rfl
  · next h =>
    have hd : diagTimeoutAbort ||| diagAddrDiscard = 0x03 := by decide
    rw [rxIdle_other h]
    simp only [Work.finish, Work.flag_r, hd]
    rfl

/-- Settles O33: the byte is flagged as ignored, and step 4 finds nothing to send. -/
theorem rxByteInTransmitPending : Obligations.RxByteInTransmitPending := by
  intro b t s hs ht hq
  rw [exec_rxByte, rxByte_pending (chip_timedOut_false ht) hs,
    turnaround_empty (w := rxIgnored (stamped t s)) hs hq]
  exact congrArg Host.Outcome.next (finish_flag (w := (stamped t s).upd (State.setSt .idle)) rfl _)

end Sys2Proof.Machine

/-! ## The invariants (10_state.md section 4) -/

namespace Sys2Proof.Machine

/-! ### Reset (R38) -/

/-- Settles O10. -/
theorem resetValues : Obligations.ResetValues :=
  ⟨rfl, rfl, rfl, rfl, rfl, rfl, rfl, Memory.read_nil, Memory.read_nil, rfl⟩

/-- The invariant is about the registers and buffers alone. -/
theorem Inv.congr {c : Config} {s t : State} (hi : Inv c s) (h : sameCore s t) : Inv c t := by
  obtain ⟨hst, hcnt, hrxb, htxb, htxLen, -, htxEn, -, -⟩ := h
  have hL : t.rxL = s.rxL := by rw [State.rxL, ← hrxb, State.rxL]
  exact {
    rxbWf := hrxb ▸ hi.rxbWf
    txbWf := htxb ▸ hi.txbWf
    rxbWithin := hrxb ▸ hi.rxbWithin
    txbWithin := htxb ▸ hi.txbWithin
    notPending := hst ▸ hi.notPending
    inLength := hst ▸ hcnt ▸ hi.inLength
    inPayload := hL ▸ hst ▸ hcnt ▸ hi.inPayload
    inCrc := hL ▸ hst ▸ hcnt ▸ hi.inCrc
    cntLe := hcnt ▸ hi.cntLe
    queue := htxLen ▸ hi.queue
    lineUp := hst ▸ htxEn ▸ hi.lineUp }

theorem inv_reset (c : Config) : Inv c State.reset where
  rxbWf      := Memory.wf_reset_rxb
  txbWf      := Memory.wf_reset_txb
  rxbWithin  := rfl
  txbWithin  := rfl
  notPending := by decide
  inLength   := by decide
  inPayload  := nofun
  inCrc      := nofun
  cntLe      := Nat.zero_le _
  queue      := .inl rfl
  lineUp     := nofun

/-- In IDLE with `frame_rx` and `crc_ok` clear, nothing is said of RXB. -/
theorem frameInv_reset (c : Config) : FrameInv c State.reset where
  receiving := by simp
  complete  := nofun
  notOk     := fun _ => rfl

/-- Settles O13. -/
theorem invAtReset : Obligations.InvAtReset :=
  ⟨inv_reset _, frameInv_reset _, ⟨.inl rfl, nofun⟩, nofun, nofun⟩

/-! ### What RX_BYTE can do under the invariant -/

/-- A frame opened: the address byte at `RXB[0]` (R83), and the flags of the event. -/
def frameOpened (c : Config) (b : Byte) (t : U16) (d : Byte) (s : State) : State :=
  { s with st := .receivingLength, cnt := 1, rxb := s.rxb.store c.cap 0 b, frameRx := false, crcOk := false, lastT := t,
           responses := s.responses ++ [{ diag := d }] }

/-- A byte stored at the cursor inside a frame (R84, R85), the state that follows, and the flags of the event. -/
def byteStored (c : Config) (b : Byte) (t : U16) (v : FsmState) (d : Byte) (s : State) : State :=
  { s with st := v, cnt := s.cnt + 1, rxb := rxStored c b s, lastT := t, responses := s.responses ++ [{ diag := d }] }

/-- All RX_BYTE can do from a state that meets the invariant (R83 to R91), `fresh` meaning in IDLE or timed out. -/
inductive Receives (c : Config) (b : Byte) (t : U16) (s : State) : State → Prop
  | opened {d : Byte} (fresh : s.st = .idle ∨ timedOut c t s = true) (hb : b = c.addrIn) (hd : d.getLsbD 5 = false) :
      Receives c b t s (frameOpened c b t d s)
  | discarded {d : Byte} (fresh : s.st = .idle ∨ timedOut c t s = true) (hb : b ≠ c.addrIn)
      (hd : d.getLsbD 5 = false) :
      Receives c b t s { s with st := .idle, lastT := t, responses := s.responses ++ [{ diag := d }] }
  | lengthStored (hs : s.st = .receivingLength) (hb : legalLength c b = true) :
      Receives c b t s (byteStored c b t .receivingPayload 0 s)
  | lengthRejected (hs : s.st = .receivingLength) (hb : legalLength c b = false) :
      Receives c b t s (byteStored c b t .idle diagLenReject s)
  | payloadStored (hs : s.st = .receivingPayload) (hc : s.cnt.toNat < s.rxL) :
      Receives c b t s (byteStored c b t .receivingPayload 0 s)
  | payloadEnd (hs : s.st = .receivingPayload) (hc : s.cnt.toNat = s.rxL) :
      Receives c b t s (byteStored c b t .receivingCrc 0 s)
  | frameEnd (hs : s.st = .receivingCrc) (ht : timedOut c t s = false) : Receives c b t s (frameEnd c b t s)
  | ignored (hs : s.st = .transmitting) :
      Receives c b t s { s with lastT := t, responses := s.responses ++ [{ diag := diagByteIgnoredTx }] }

/-- A byte handled in IDLE, with the flags raised so far. -/
theorem receives_rxIdle {c : Config} {t : U16} {s : State} (fresh : s.st = .idle ∨ timedOut c t s = true) (b : Byte)
    {d : Byte} (hd : d.getLsbD 5 = false) :
    Receives c b t s (rxIdle c b { s := (s.setSt .idle).setLastT t, r := { diag := d } }).finish := by
  by_cases hb : b = c.addrIn
  · rw [rxIdle_address hb]
    exact .opened fresh hb hd
  · rw [rxIdle_other hb]
    exact .discarded (d := d ||| diagAddrDiscard) fresh hb (by rw [BitVec.getLsbD_or, hd]; rfl)

/-- RX_BYTE does what `Receives` lists. -/
theorem receives {c : Config} {s : State} (hi : Inv c s) (b : Byte) (t : U16) :
    Receives c b t s (rxByte c b t s) := by
  cases ht : timedOut c t s with
  | true =>
    rw [rxByte_timeout ht]
    exact receives_rxIdle (.inr ht) b (by decide)
  | false =>
    cases hs : s.st with
    | idle =>
      have hst : stamped t s = { s := (s.setSt .idle).setLastT t, r := { diag := 0 } } := by
        rw [State.setSt, ← hs]
        rfl
      rw [rxByte_idle hs, hst]
      exact receives_rxIdle (.inl hs) b (by decide)
    | receivingLength =>
      rw [rxByte_length_eq ht hs]
      cases hb : legalLength c b with
      | true => exact .lengthStored hs hb
      | false => exact .lengthRejected hs hb
    | receivingPayload =>
      obtain ⟨-, hle, -⟩ := hi.payloadCursor hs
      rw [rxByte_payload_eq hi ht hs]
      obtain hc | hc := Nat.lt_or_eq_of_le hle
      · rw [if_neg (by omega)]
        exact .payloadStored hs hc
      · rw [if_pos (by omega)]
        exact .payloadEnd hs hc
    | receivingCrc =>
      rw [rxByte_crc_eq hi ht hs]
      exact .frameEnd hs ht
    | transmitPending => exact absurd hs hi.notPending
    | transmitting =>
      rw [rxByte_transmitting ht hs]
      have hr : (rxIgnored (stamped t s)).finish = (s.setLastT t).respond { diag := diagByteIgnoredTx } :=
        finish_flag rfl _
      rw [hr]
      exact .ignored hs

/-! ### Every step keeps the invariant (R34 to R37) -/

/-- Inside a frame the cursor has room for one more byte (R35). -/
theorem Inv.cursor_lt {c : Config} {s : State} (hi : Inv c s)
    (hs : s.st = .receivingLength ∨ s.st = .receivingPayload ∨ s.st = .receivingCrc) : s.cnt.toNat < c.cap := by
  obtain hs | hs | hs := hs
  · have hcap := c.ok.1.1
    rw [hi.inLength hs]
    omega
  · exact (hi.payloadCursor hs).2.2
  · exact (hi.crcCursor hs).2.2

/-- The length byte after a store at the cursor. -/
theorem byteStored_rxL {c : Config} {b : Byte} {t : U16} {v : FsmState} {d : Byte} {s : State}
    (h : s.cnt.toNat ≠ 1) : (byteStored c b t v d s).rxL = s.rxL :=
  State.pushRxb_rxL (c := c) (b := b) h

theorem byteStored_rxL_length {c : Config} {b : Byte} {t : U16} {v : FsmState} {d : Byte} {s : State}
    (h : s.cnt.toNat = 1) : (byteStored c b t v d s).rxL = b.toNat :=
  State.pushRxb_rxL_length (c := c) (b := b) h

/-- A byte stored inside a frame keeps the invariant, if the next state fits the cursor and the length byte. -/
theorem Inv.stored {c : Config} {b : Byte} {t : U16} {v : FsmState} {d : Byte} {s : State} (hi : Inv c s)
    (hs : s.st = .receivingLength ∨ s.st = .receivingPayload ∨ s.st = .receivingCrc)
    (hv : v = .idle ∨ v = .receivingPayload ∨ v = .receivingCrc)
    (hpayload : v = .receivingPayload → 2 ≤ (byteStored c b t v d s).rxL ∧ (byteStored c b t v d s).rxL ≤ c.cap - 2
      ∧ 1 ≤ s.cnt.toNat ∧ s.cnt.toNat + 1 ≤ (byteStored c b t v d s).rxL)
    (hcrc : v = .receivingCrc → 2 ≤ (byteStored c b t v d s).rxL ∧ (byteStored c b t v d s).rxL ≤ c.cap - 2
      ∧ s.cnt.toNat = (byteStored c b t v d s).rxL) :
    Inv c (byteStored c b t v d s) := by
  have hlt := hi.cursor_lt hs
  have hsucc : (byteStored c b t v d s).cnt.toNat = s.cnt.toNat + 1 := count_succ hlt
  refine { hi with
    rxbWf := Memory.wf_store hi.rxbWf ..
    rxbWithin := Memory.within_store hi.rxbWithin ..
    notPending := ?_, inLength := fun h => ?_, inPayload := fun h => ?_, inCrc := fun h => ?_
    cntLe := by omega
    lineUp := fun h => ?_ }
  · obtain rfl | rfl | rfl := hv <;> nofun
  · obtain rfl | rfl | rfl := hv <;> cases h
  · obtain ⟨hlo, hhi, hpos, hle⟩ := hpayload h
    exact ⟨hlo, hhi, by omega, by omega⟩
  · obtain ⟨hlo, hhi, heq⟩ := hcrc h
    exact ⟨hlo, hhi, by omega⟩
  · obtain rfl | rfl | rfl := hv <;> cases h

/-- The invariant after a frame's last byte: `st` is IDLE, or TRANSMITTING with the line turned round (R90, R91). -/
theorem Inv.frameEnded {c : Config} {b : Byte} {t : U16} {s : State} (hi : Inv c s) (hs : s.st = .receivingCrc) :
    Inv c (frameEnd c b t s) := by
  have hlt := hi.cursor_lt (.inr (.inr hs))
  have hsucc : (frameEnd c b t s).cnt.toNat = s.cnt.toNat + 1 := count_succ hlt
  have hst : (frameEnd c b t s).st = if s.txLen = 0 then .idle else .transmitting := rfl
  exact { hi with
    rxbWf := Memory.wf_store hi.rxbWf ..
    rxbWithin := Memory.within_store hi.rxbWithin ..
    notPending := by rw [hst]; split <;> nofun
    inLength := by rw [hst]; split <;> nofun
    inPayload := by rw [hst]; split <;> nofun
    inCrc := by rw [hst]; split <;> nofun
    cntLe := by omega
    queue := .inl rfl
    lineUp := by
      rw [hst]
      split
      · nofun
      · next hq => exact fun _ => if_neg hq }

theorem Inv.receives {c : Config} {b : Byte} {t : U16} {s u : State} (hi : Inv c s) (h : Receives c b t s u) :
    Inv c u := by
  cases h with
  | opened =>
    have hcnt : (1 : Count).toNat ≤ c.cap := Nat.le_trans (by decide) c.ok.1.1
    exact { hi with
      rxbWf := Memory.wf_store hi.rxbWf ..
      rxbWithin := Memory.within_store hi.rxbWithin ..
      notPending := nofun, inLength := fun _ => rfl, inPayload := nofun, inCrc := nofun, cntLe := hcnt
      lineUp := nofun }
  | discarded =>
    exact { hi with notPending := nofun, inLength := nofun, inPayload := nofun, inCrc := nofun, lineUp := nofun }
  | lengthStored hs hb =>
    have hcnt := hi.inLength hs
    obtain ⟨hlo, hhi⟩ := (legalLength_iff c b).1 hb
    refine hi.stored (.inl hs) (.inr (.inl rfl)) (fun _ => ?_) nofun
    rw [byteStored_rxL_length hcnt, hcnt]
    exact ⟨hlo, hhi, Nat.le_refl 1, hlo⟩
  | lengthRejected hs => exact hi.stored (.inl hs) (.inl rfl) nofun nofun
  | payloadStored hs hc =>
    obtain ⟨hlo, hhi, hcnt, -⟩ := hi.inPayload hs
    refine hi.stored (.inr (.inl hs)) (.inr (.inl rfl)) (fun _ => ?_) nofun
    rw [byteStored_rxL (by omega)]
    exact ⟨hlo, hhi, by omega, hc⟩
  | payloadEnd hs hc =>
    obtain ⟨hlo, hhi, hcnt, -⟩ := hi.inPayload hs
    refine hi.stored (.inr (.inl hs)) (.inr (.inr rfl)) nofun fun _ => ?_
    rw [byteStored_rxL (by omega)]
    exact ⟨hlo, hhi, hc⟩
  | frameEnd hs => exact hi.frameEnded hs
  | ignored => exact { hi with }

/-- Settles O16. -/
theorem rxByteKeepsInvInEveryConfig : Obligations.RxByteKeepsInvInEveryConfig := fun _ b t _ hi =>
  hi.receives (receives hi b t)

/-- Every operation keeps the invariant. -/
theorem Inv.performs {c : Config} {i : Instr} {s t : State} (hi : Inv c s) (h : Performs c s i t) : Inv c t := by
  cases h with
  | rxByte b u => exact rxByteKeepsInvInEveryConfig c b u s hi
  | txDone =>
    exact { hi with notPending := nofun, inLength := nofun, inPayload := nofun, inCrc := nofun, lineUp := nofun }
  | reset => exact (inv_reset c).congr ⟨rfl, rfl, rfl, rfl, rfl, rfl, rfl, rfl, rfl⟩
  | @enqueue k p hp =>
    have hfits : (buildFrame c k p).length ≤ c.cap := isBuilt.length_le (.inr ⟨k, p, hp, rfl⟩)
    exact { hi with
      txbWf := Memory.wf_writeRange hi.txbWf ..
      txbWithin := Memory.within_writeRange hi.txbWithin (by omega)
      queue := .inr ⟨k, enqueued_txLen hp s⟩ }
  | answer => exact hi.congr ⟨rfl, rfl, rfl, rfl, rfl, rfl, rfl, rfl, rfl⟩

theorem Inv.setEvents {c : Config} {s : State} (hi : Inv c s) (es : List Event) : Inv c (s.setEvents es) :=
  hi.congr ⟨rfl, rfl, rfl, rfl, rfl, rfl, rfl, rfl, rfl⟩

/-- Every step keeps the invariant, in every configuration. -/
theorem Inv.advance {c : Config} {s : State} (hi : Inv c s) : Inv c (advance c s) :=
  advance_keeps (fun _ es h => h.setEvents es) Inv.performs hi

/-- Settles O60. -/
theorem everyConfigKeepsInv : Obligations.EveryConfigKeepsInv := ⟨step_eq_advance, fun _ _ => Inv.advance⟩

/-- Settles O14. -/
theorem everyStepKeepsInv : Obligations.EveryStepKeepsInv := by
  intro s t hi hstep
  rw [step_eq_advance, Host.Outcome.next.injEq] at hstep
  exact hstep ▸ hi.advance

end Sys2Proof.Machine

/-! ## The meaning of `frame_rx`, of the line and of the responses (10_state.md, 20_memory.md section 3) -/

namespace Sys2Proof.Machine

/-! ### `frame_rx` and `crc_ok` (R29, R30, R46) -/

/-- Inside a frame `RXB[0]` is behind the cursor. -/
theorem Inv.cursor_pos {c : Config} {s : State} (hi : Inv c s)
    (hs : s.st = .receivingLength ∨ s.st = .receivingPayload ∨ s.st = .receivingCrc) : 1 ≤ s.cnt.toNat := by
  obtain hs | hs | hs := hs
  · exact (hi.inLength hs).ge
  · have := hi.payloadCursor hs
    omega
  · have := hi.crcCursor hs
    omega

/-- A byte stored inside a frame leaves the address byte and `frame_rx` alone. -/
theorem FrameInv.stored {c : Config} {b : Byte} {t : U16} {v : FsmState} {d : Byte} {s : State} (hi : Inv c s)
    (hf : FrameInv c s) (hs : s.st = .receivingLength ∨ s.st = .receivingPayload ∨ s.st = .receivingCrc) :
    FrameInv c (byteStored c b t v d s) := by
  obtain ⟨hrx, haddr⟩ := hf.receiving hs
  have hpos := hi.cursor_pos hs
  refine ⟨fun _ => ⟨hrx, ?_⟩, fun h => absurd (hrx.symm.trans h) (by decide), hf.notOk⟩
  exact (read_rxStored (hi.cursor_lt hs) b 0).trans (by rw [if_neg (by omega), haddr])

/-- A frame's last byte completes it: `RXB` holds its bytes, and `crc_ok` compares the byte just stored. -/
theorem FrameInv.frameEnded {c : Config} {b : Byte} {t : U16} {s : State} (hi : Inv c s) (hf : FrameInv c s)
    (hs : s.st = .receivingCrc) : FrameInv c (frameEnd c b t s) := by
  obtain ⟨-, haddr⟩ := hf.receiving (.inr (.inr hs))
  obtain ⟨hlo, hhi, -⟩ := hi.inCrc hs
  obtain ⟨hcnt, hpos, hlt⟩ := hi.crcCursor hs
  have hst : (frameEnd c b t s).st = if s.txLen = 0 then .idle else .transmitting := rfl
  have hread : ∀ a, (frameEnd c b t s).rxb.read a = if a = s.cnt.toNat then b else s.rxb.read a := read_rxStored hlt b
  have hsucc : (frameEnd c b t s).cnt.toNat = s.cnt.toNat + 1 := count_succ hlt
  have hL : (frameEnd c b t s).rxL = s.rxL := by rw [State.rxL, hread, if_neg (by omega), State.rxL]
  have hcovered : (frameEnd c b t s).rxb.readRange 2 (s.rxL - 1) = s.rxb.readRange 2 (s.rxL - 1) :=
    Memory.readRange_congr fun i _ => by rw [hread, if_neg (by omega)]
  refine ⟨?_, fun _ => ⟨?_, ?_⟩, nofun⟩
  · rw [hst]
    split <;> simp
  · rw [hst]
    split <;> simp
  · rw [hL, hcovered, hread, hread, if_neg (by omega), if_pos hcnt.symm]
    exact ⟨hlo, hhi, by omega, haddr, rfl⟩

theorem FrameInv.receives {c : Config} {b : Byte} {t : U16} {s u : State} (hi : Inv c s) (hf : FrameInv c s)
    (h : Receives c b t s u) : FrameInv c u := by
  cases h with
  | opened _ hb =>
    refine ⟨fun _ => ⟨rfl, ?_⟩, nofun, fun _ => rfl⟩
    have hcap := c.ok.1.1
    exact (Memory.read_store c.cap s.rxb 0 b 0).trans (by rw [if_pos ⟨rfl, by omega⟩, hb])
  | discarded => exact ⟨by simp, fun h => ⟨.inl rfl, (hf.complete h).2⟩, hf.notOk⟩
  | lengthStored hs => exact hf.stored hi (.inl hs)
  | lengthRejected hs => exact hf.stored hi (.inl hs)
  | payloadStored hs => exact hf.stored hi (.inr (.inl hs))
  | payloadEnd hs => exact hf.stored hi (.inr (.inl hs))
  | frameEnd hs => exact hf.frameEnded hi hs
  | ignored => exact { hf with }

/-- Every operation keeps the meaning of `frame_rx` and `crc_ok`. -/
theorem FrameInv.performs {c : Config} {i : Instr} {s t : State} (hi : Inv c s) (hf : FrameInv c s)
    (h : Performs c s i t) : FrameInv c t := by
  cases h with
  | rxByte b u => exact hf.receives hi (Machine.receives hi b u)
  | txDone => exact ⟨by simp [txDone], fun h => ⟨.inl rfl, (hf.complete h).2⟩, hf.notOk⟩
  | reset => exact ⟨by simp [resetCore], nofun, fun _ => rfl⟩
  | enqueue => exact { hf with }
  | answer => exact { hf with }

/-- Settles O17. -/
theorem everyStepKeepsFrameInv : Obligations.EveryStepKeepsFrameInv := by
  intro s t hi hf hstep
  rw [step_eq_advance, Host.Outcome.next.injEq] at hstep
  have h : Inv Config.chip (advance Config.chip s) ∧ FrameInv Config.chip (advance Config.chip s) :=
    advance_keeps (P := fun s => Inv Config.chip s ∧ FrameInv Config.chip s)
      (fun _ es h => ⟨h.1.setEvents es, { h.2 with }⟩) (fun h hp => ⟨h.1.performs hp, h.2.performs h.1 hp⟩) ⟨hi, hf⟩
  exact hstep ▸ h.2

/-! ### The line (R37, R152) -/

/-- A line that is not enabled, outside TRANSMITTING. -/
theorem lineInv_of_off {s : State} (hen : s.txEn = false) (hst : s.st ≠ .transmitting) : LineInv s :=
  ⟨fun h => absurd (hen.symm.trans h) (by decide), fun h => absurd h hst⟩

/-- With the receiver enabled, RX_BYTE ignores no byte and enables the line exactly where it starts a transmission. -/
theorem Receives.line {c : Config} {b : Byte} {t : U16} {s u : State} (h : Receives c b t s u) (hl : LineInv s)
    (hen : s.txEn = false) : LineInv u ∧ ∃ r, u.responses = s.responses ++ [r] ∧ r.diag.getLsbD 5 = false := by
  cases h with
  | opened _ _ hd => exact ⟨lineInv_of_off hen nofun, _, rfl, hd⟩
  | discarded _ _ hd => exact ⟨lineInv_of_off hen nofun, _, rfl, hd⟩
  | lengthStored => exact ⟨lineInv_of_off hen nofun, _, rfl, by decide⟩
  | lengthRejected => exact ⟨lineInv_of_off hen nofun, _, rfl, by decide⟩
  | payloadStored => exact ⟨lineInv_of_off hen nofun, _, rfl, by decide⟩
  | payloadEnd => exact ⟨lineInv_of_off hen nofun, _, rfl, by decide⟩
  | frameEnd =>
    refine ⟨?_, _, rfl, ?_⟩
    · by_cases hq : s.txLen = 0
      · exact lineInv_of_off ((if_pos hq).trans hen) (by simp [Machine.frameEnd, hq])
      · exact ⟨fun _ => if_neg hq, fun _ => if_neg hq⟩
    · rw [addBurst_diag, frameResponse]
      dsimp only
      split <;> decide
  | ignored hs => exact absurd (hen.symm.trans (hl.2 hs)) (by decide)

/-- Settles O19, operation by operation. -/
theorem receiveDutyKeepsLineInv : Obligations.ReceiveDutyKeepsLineInv := by
  intro i s t hi hl hduty hexec
  cases performs_of_exec hexec with
  | rxByte b u => exact (receives hi b u).line hl (hduty b u rfl)
  | txDone =>
    refine ⟨lineInv_of_off rfl nofun, _, rfl, ?_⟩
    dsimp only
    split <;> decide
  | reset => exact ⟨lineInv_of_off rfl nofun, _, rfl, by decide⟩
  | enqueue => exact ⟨hl, _, rfl, BitVec.getLsbD_zero⟩
  | @answer _ r hr =>
    have hall : ∀ d : Byte, d = 0 ∨ d = diagEnqDropped ∨ d = diagReservedEvent → d.getLsbD 5 = false := by decide
    exact ⟨hl, r, rfl, hall r.diag hr.diag⟩

/-! ### What a frame's end alone can do (R66, R101, R150) -/

/-- RX_BYTE answers flags and nothing else, or the byte ended a frame in time. -/
theorem Receives.response {c : Config} {b : Byte} {t : U16} {s u : State} (h : Receives c b t s u) :
    (∃ d, u.responses = s.responses ++ [{ diag := d }]) ∨ (s.st = .receivingCrc ∧ timedOut c t s = false) := by
  cases h with
  | frameEnd hs ht => exact .inr ⟨hs, ht⟩
  | _ => exact .inl ⟨_, rfl⟩

/-- Settles O30, operation by operation. -/
theorem channelsAndStartOnlyAtFrameEnd : Obligations.ChannelsAndStartOnlyAtFrameEnd := by
  intro i s t hi hexec
  cases performs_of_exec hexec with
  | rxByte b u =>
    obtain ⟨d, hr⟩ | ⟨hs, ht⟩ := (receives hi b u).response
    · exact ⟨_, hr, by simp⟩
    · refine ⟨_, rxByte_responses _ b u s, fun _ => ⟨hs, b, u, rfl, ?_⟩⟩
      by_contra hlate
      have := (chip_timedOut_iff u s).2 ⟨by simp [hs], by omega⟩
      simp [ht] at this
  | txDone => exact ⟨_, rfl, by simp⟩
  | reset => exact ⟨_, rfl, by simp⟩
  | enqueue => exact ⟨_, rfl, by simp⟩
  | answer hr => exact ⟨_, rfl, by simp [hr.dec, hr.chan]⟩

/-- Settles O35: in time and inside a frame, every byte is stored at the cursor, the address byte too. -/
theorem addressByteInsideFrameIsData : Obligations.AddressByteInsideFrameIsData := by
  intro t s hi hs ht
  have hlt := hi.cursor_lt hs
  have hto : timedOut Config.chip t s = false := chip_timedOut_false ht
  have hstored : (rxStored Config.chip Config.chip.addrIn s).read s.cnt.toNat = Config.chip.addrIn := by
    rw [read_rxStored hlt, if_pos rfl]
  have hfresh : ¬ (s.st = .idle ∨ timedOut Config.chip t s = true) := by
    obtain h | h | h := hs <;> simp [h, hto]
  refine ⟨_, exec_rxByte _ t s, ?_⟩
  have hrx := receives hi Config.chip.addrIn t
  generalize rxByte Config.chip Config.chip.addrIn t s = u at hrx ⊢
  cases hrx with
  | opened fresh => exact absurd fresh hfresh
  | discarded fresh => exact absurd fresh hfresh
  | lengthStored => exact ⟨nofun, count_succ hlt, hstored⟩
  | lengthRejected => exact ⟨nofun, count_succ hlt, hstored⟩
  | payloadStored => exact ⟨nofun, count_succ hlt, hstored⟩
  | payloadEnd => exact ⟨nofun, count_succ hlt, hstored⟩
  | frameEnd =>
    refine ⟨?_, count_succ hlt, hstored⟩
    rw [frameEnd]
    dsimp only
    split <;> nofun
  | ignored h => simp [h] at hs

end Sys2Proof.Machine

/-! ## Runs of events, and frames byte by byte (30_encoding.md sections 1, 2 and 4, 42_telemetry_enqueue.md) -/

namespace Sys2Proof.Machine

/-! ### Runs (R174) -/

theorem runEvents_nil (s : State) : runEvents s [] = .next (s.setEvents []) := rfl

theorem run_succ {k : Nat} {s t : State} (h : step s = .next t) : core.run (k + 1) s = core.run k t := by
  have hcore : core.step s = .next t := h
  simp only [Host.Core.run, hcore]

theorem setEvents_eq_self {s : State} {es : List Event} (h : s.events = es) : s.setEvents es = s := by
  subst h
  rfl

/-- A run takes one step for its first event and goes on with the rest. -/
theorem runEvents_cons (s : State) (e : Event) (es : List Event) :
    runEvents s (e :: es) = runEvents (advance Config.chip (s.setEvents (e :: es))) es := by
  obtain ⟨hev, -⟩ := advance_answers (c := Config.chip) (s := s.setEvents (e :: es)) rfl
  have hrest := setEvents_eq_self hev
  exact (run_succ (step_eq_advance _)).trans (congrArg (core.run es.length) hrest.symm)

/-- Settles O20, by induction on the events. -/
theorem everyRunCompletes : Obligations.EveryRunCompletes := by
  intro s es hi
  induction es generalizing s with
  | nil => exact ⟨_, runEvents_nil s, hi.setEvents [], rfl, rfl⟩
  | cons e es ih =>
    obtain ⟨-, r, hr⟩ := advance_answers (c := Config.chip) (s := s.setEvents (e :: es)) rfl
    obtain ⟨t, hrun, hinv, hev, hlen⟩ := ih _ (hi.setEvents (e :: es)).advance
    refine ⟨t, (runEvents_cons s e es).trans hrun, hinv, hev, ?_⟩
    rw [hlen, hr, State.setEvents_responses, List.length_append, List.length_singleton, List.length_cons]
    omega

/-- RX_BYTE for each byte of a string with its timestamp. -/
def rxBytes (c : Config) (bts : List (Byte × U16)) (s : State) : State :=
  bts.foldl (fun s bt => rxByte c bt.1 bt.2 s) s

@[simp] theorem rxBytes_nil (c : Config) (s : State) : rxBytes c [] s = s := rfl
@[simp] theorem rxBytes_cons (c : Config) (b : Byte) (t : U16) (bts : List (Byte × U16)) (s : State) :
    rxBytes c ((b, t) :: bts) s = rxBytes c bts (rxByte c b t s) := rfl

/-- A step on an RX_BYTE event is RX_BYTE. -/
theorem advance_rxByte (c : Config) (b : Byte) (t : U16) (es : List Event) (s : State) :
    advance c (s.setEvents (encode (.rxByte b t) :: es)) = (rxByte c b t s).setEvents es := by
  have hd : decodeEvent c (encode (.rxByte b t)) = .ok (.rxByte b t) := decodeEncodeEveryInstr c _ rfl
  obtain ⟨i, hi, ha⟩ | ⟨r, hr, -⟩ := advance_cons (c := c) (s := s.setEvents (encode (.rxByte b t) :: es)) rfl
  · rw [hd] at hi
    rw [ha, ← Except.ok.inj hi]
    exact rxByte_setEvents c b t es s
  · rw [hd] at hr
    cases hr

/-- A run of RX_BYTE events is RX_BYTE byte by byte. -/
theorem runEvents_rxEvents (bts : List (Byte × U16)) (s : State) :
    runEvents s (rxEvents bts) = .next ((rxBytes Config.chip bts s).setEvents []) := by
  induction bts generalizing s with
  | nil => exact runEvents_nil s
  | cons bt bts ih =>
    obtain ⟨b, t⟩ := bt
    rw [rxBytes_cons, ← ih, rxEvents, List.map_cons, runEvents_cons, advance_rxByte]
    rfl

/-! ### Noise in IDLE (R100) -/

theorem rxByte_noise {c : Config} {b : Byte} {s : State} (hb : b ≠ c.addrIn) (hs : s.st = .idle) (t : U16) :
    rxByte c b t s = { s with lastT := t, responses := s.responses ++ [{ diag := diagAddrDiscard }] } := by
  rw [rxByte_idle hs, rxIdle_other hb, finish_flag rfl]
  rfl

/-- Noise leaves its last time and one ADDR_DISCARD for each byte. -/
theorem rxBytes_noise {c : Config} {bts : List (Byte × U16)} {s : State} (hb : ∀ bt ∈ bts, bt.1 ≠ c.addrIn)
    (hs : s.st = .idle) :
    rxBytes c bts s = { s with
      lastT := (bts.getLast?.map Prod.snd).getD s.lastT
      responses := s.responses ++ List.replicate bts.length { diag := diagAddrDiscard } } := by
  induction bts generalizing s with
  | nil => simp
  | cons bt bts ih =>
    obtain ⟨b, t⟩ := bt
    rw [rxBytes_cons, rxByte_noise (hb _ List.mem_cons_self) hs,
      ih (s := { s with lastT := t, responses := s.responses ++ [{ diag := diagAddrDiscard }] })
        (fun bt h => hb bt (List.mem_cons_of_mem _ h)) hs]
    cases h : bts.getLast? <;> simp [List.getLast?_cons, h, List.replicate_succ]

/-- Settles O37. -/
theorem noiseInIdleChangesNothing : Obligations.NoiseInIdleChangesNothing := by
  intro s bts hs hb
  rw [runEvents_rxEvents, rxBytes_noise hb hs]
  rfl

/-! ### A frame byte by byte (R55 to R58, R83 to R86) -/

/-- A frame on the wire (R55): address, length, type, payload, and a last byte that need not be its CRC. -/
def wireFrame (c : Config) (type : Byte) (p : List Byte) (x : Byte) : List Byte :=
  c.addrIn :: BitVec.ofNat 8 (p.length + 2) :: type :: p ++ [x]

/-- A byte string that RX_BYTE can take for one frame: its length byte is legal and right. -/
structure IsFrame (c : Config) (f : List Byte) : Prop where
  address : f.getD 0 0 = c.addrIn
  length  : f.length = (f.getD 1 0).toNat + 2
  legal   : legalLength c (f.getD 1 0) = true

theorem length_wireFrame (c : Config) (type : Byte) (p : List Byte) (x : Byte) :
    (wireFrame c type p x).length = p.length + 4 := by
  simp [wireFrame]

theorem isFrame_wireFrame {c : Config} {p : List Byte} (hp : p.length + 4 ≤ c.cap) (type x : Byte) :
    IsFrame c (wireFrame c type p x) := by
  have hcap := c.ok.1.2
  have hL : (BitVec.ofNat 8 (p.length + 2)).toNat = p.length + 2 := by
    rw [BitVec.toNat_ofNat, Nat.mod_eq_of_lt (by omega)]
  refine ⟨rfl, ?_, ?_⟩
  · rw [length_wireFrame]
    exact congrArg (· + 2) hL.symm
  · change legalLength c (BitVec.ofNat 8 (p.length + 2)) = true
    rw [legalLength_iff, hL]
    omega

theorem IsFrame.bounds {c : Config} {f : List Byte} (h : IsFrame c f) : 4 ≤ f.length ∧ f.length ≤ c.cap := by
  have hcap := c.ok.1.1
  have hlen := h.length
  have := (legalLength_iff c _).1 h.legal
  omega

/-- What the core waits for after `n` bytes of a frame of `len` bytes. -/
def frameSt (len n : Nat) : FsmState :=
  if n = 1 then .receivingLength else if n + 1 < len then .receivingPayload else .receivingCrc

/-- The first `n` bytes of the frame `f` have been received, and more are to come. -/
structure Midframe (c : Config) (f : List Byte) (n : Nat) (s : State) : Prop where
  inv  : Inv c s
  pos  : 1 ≤ n
  more : n < f.length
  cnt  : s.cnt.toNat = n
  st   : s.st = frameSt f.length n
  read : ∀ i < n, s.rxb.read i = f.getD i 0

namespace Midframe

variable {c : Config} {f : List Byte} {n : Nat} {s : State}

theorem receiving (h : Midframe c f n s) :
    s.st = .receivingLength ∨ s.st = .receivingPayload ∨ s.st = .receivingCrc := by
  rw [h.st, frameSt]
  split_ifs <;> simp

/-- Once stored, the length byte gives the length of the frame. -/
theorem rxL (h : Midframe c f n s) (hf : IsFrame c f) (hn : n ≠ 1) : f.length = s.rxL + 2 := by
  have hpos := h.pos
  rw [State.rxL, h.read 1 (by omega)]
  exact hf.length

/-- The next byte goes behind the ones received. -/
theorem read_rxStored (h : Midframe c f n s) {i : Nat} (hi : i < n + 1) :
    (rxStored c (f.getD n 0) s).read i = f.getD i 0 := by
  rw [Machine.read_rxStored (h.inv.cursor_lt h.receiving), h.cnt]
  split
  · next heq => rw [heq]
  · exact h.read i (by omega)

/-- A byte before the last, in time. -/
theorem next (h : Midframe c f n s) (hf : IsFrame c f) (hlast : n + 1 < f.length) {t : U16}
    (ht : timedOut c t s = false) : Midframe c f (n + 1) (rxByte c (f.getD n 0) t s) := by
  obtain ⟨hlen, -⟩ := hf.bounds
  have hcnt := h.cnt
  have hst : (rxByte c (f.getD n 0) t s).st = frameSt f.length (n + 1) ∧
      (rxByte c (f.getD n 0) t s).cnt = s.cnt + 1 ∧ (rxByte c (f.getD n 0) t s).rxb = rxStored c (f.getD n 0) s := by
    by_cases hn : n = 1
    · have hs : s.st = .receivingLength := h.st.trans (if_pos hn)
      have hnext : frameSt f.length (n + 1) = .receivingPayload := by
        rw [frameSt, if_neg (by omega), if_pos (by omega)]
      rw [rxByte_length_eq ht hs, if_pos (hn ▸ hf.legal), hnext]
      exact ⟨rfl, rfl, rfl⟩
    · have hs : s.st = .receivingPayload := h.st.trans ((if_neg hn).trans (if_pos hlast))
      have hL := h.rxL hf hn
      rw [rxByte_payload_eq h.inv ht hs]
      have hpos := h.pos
      have hnext : frameSt f.length (n + 1) = if n + 1 + 1 < f.length then .receivingPayload else .receivingCrc :=
        if_neg (by omega)
      refine ⟨Eq.trans ?_ hnext.symm, rfl, rfl⟩
      by_cases hend : n + 1 + 1 < f.length
      · exact (if_neg (by omega)).trans (if_pos hend).symm
      · exact (if_pos (by omega)).trans (if_neg hend).symm
  obtain ⟨hst, hcnt', hrxb⟩ := hst
  exact {
    inv := rxByteKeepsInvInEveryConfig c _ t s h.inv
    pos := by omega
    more := hlast
    cnt := by rw [hcnt', count_succ (h.inv.cursor_lt h.receiving), hcnt]
    st := hst
    read := fun i hi => by rw [hrxb, h.read_rxStored hi] }

end Midframe

/-- The whole frame has been received, and `crc_ok` says whether its last byte is its CRC. -/
structure FrameReceived (c : Config) (f : List Byte) (s : State) : Prop where
  cnt     : s.cnt.toNat = f.length
  rxb     : s.rxb.readRange 0 f.length = f
  frameRx : s.frameRx = true
  crcOk   : s.crcOk = (f.getD (f.length - 1) 0 == crc8 c ((f.drop 2).take (f.length - 3)))

/-- Bytes of a buffer that are those of a string, read out. -/
theorem readRange_eq_take_drop {m : Memory} {f : List Byte} {a k : Nat} (hk : a + k ≤ f.length)
    (h : ∀ i, a ≤ i → i < a + k → m.read i = f.getD i 0) : m.readRange a k = (f.drop a).take k := by
  refine List.ext_getElem (by simp; omega) fun i hi _ => ?_
  rw [Memory.length_readRange] at hi
  rw [Memory.getElem_readRange, h (a + i) (by omega) (by omega), List.getElem_take, List.getElem_drop,
    List.getD_eq_getElem _ _ (by omega)]

/-- The last byte, in time. -/
theorem Midframe.last {c : Config} {f : List Byte} {n : Nat} {s : State} (h : Midframe c f n s) (hf : IsFrame c f)
    (hlast : n + 1 = f.length) {t : U16} (ht : timedOut c t s = false) :
    FrameReceived c f (rxByte c (f.getD n 0) t s) := by
  obtain ⟨hlen, -⟩ := hf.bounds
  have hn : n ≠ 1 := by omega
  have hs : s.st = .receivingCrc := h.st.trans ((if_neg hn).trans (if_neg (by omega)))
  have hL := h.rxL hf hn
  have hcovered : s.rxb.readRange 2 (s.rxL - 1) = (f.drop 2).take (f.length - 3) := by
    rw [show f.length - 3 = s.rxL - 1 by omega]
    exact readRange_eq_take_drop (by omega) fun i _ hi => h.read i (by omega)
  have hrxb : (rxStored c (f.getD n 0) s).readRange 0 f.length = f := by
    rw [readRange_eq_take_drop (f := f) (by omega) fun i _ hi => h.read_rxStored (by omega)]
    simp
  rw [rxByte_crc_eq h.inv ht hs]
  refine ⟨?_, hrxb, rfl, ?_⟩
  · exact (count_succ (h.inv.cursor_lt h.receiving)).trans (by rw [h.cnt, hlast])
  · rw [show f.length - 1 = n by omega, ← hcovered]
    rfl

/-- The rest of a frame, byte by byte and in time, by induction on what is still to come. -/
theorem Midframe.rest {c : Config} {f : List Byte} (hf : IsFrame c f) {bs : List Byte} {n : Nat} {s : State}
    {ts : List U16} (h : Midframe c f n s) (hbs : f.drop n = bs) (hts : ts.length = bs.length)
    (htime : inTime c (s.lastT :: ts)) : FrameReceived c f (rxBytes c (bs.zip ts) s) := by
  induction bs generalizing n s ts with
  | nil =>
    have := h.more
    exact absurd (List.drop_eq_nil_iff.1 hbs) (by omega)
  | cons b bs ih =>
    obtain ⟨t, ts, rfl⟩ := List.exists_cons_of_length_eq_add_one hts
    obtain ⟨hto, htime⟩ := htime
    replace hto : timedOut c t s = false := timedOut_false c t s hto
    obtain ⟨hb, hdrop⟩ := List.cons.inj ((List.drop_eq_getElem_cons h.more).symm.trans hbs)
    rw [← List.getD_eq_getElem f 0 h.more] at hb
    have hlen := congrArg List.length hdrop
    rw [List.length_drop] at hlen
    rw [List.zip_cons_cons, rxBytes_cons, ← hb]
    by_cases hlast : n + 1 = f.length
    · rw [List.length_eq_zero_iff.1 (show bs.length = 0 by omega), List.zip_nil_left, rxBytes_nil]
      exact h.last hf hlast hto
    · have hmore := h.more
      refine ih (h.next hf (by omega) hto) hdrop (by simpa using hts) ?_
      rwa [rxByte_lastT]

/-- The address byte in IDLE opens the frame. -/
theorem midframe_open {c : Config} {f : List Byte} (hf : IsFrame c f) {s : State} (hi : Inv c s) (hs : s.st = .idle)
    (t : U16) : Midframe c f 1 (rxByte c (f.getD 0 0) t s) := by
  have hinv := rxByteKeepsInvInEveryConfig c (f.getD 0 0) t s hi
  obtain ⟨hlen, hcap⟩ := hf.bounds
  rw [rxByte_idle hs, rxIdle_address hf.address] at hinv ⊢
  refine ⟨hinv, Nat.le_refl 1, by omega, rfl, rfl, fun i hlt => ?_⟩
  obtain rfl : i = 0 := by omega
  exact (Memory.read_store c.cap s.rxb 0 _ 0).trans (if_pos ⟨rfl, by omega⟩)

/-- From IDLE a frame fed byte by byte and in time is received whole. -/
theorem rxBytes_frame {c : Config} {f : List Byte} (hf : IsFrame c f) {s : State} (hi : Inv c s) (hs : s.st = .idle)
    {ts : List U16} (hlen : ts.length = f.length) (htime : inTime c ts) :
    FrameReceived c f (rxBytes c (f.zip ts) s) := by
  obtain ⟨h4, -⟩ := hf.bounds
  obtain ⟨b, bs, rfl⟩ := List.exists_cons_of_length_pos (l := f) (by omega)
  obtain ⟨t, ts, rfl⟩ := List.exists_cons_of_length_eq_add_one hlen
  rw [List.zip_cons_cons, rxBytes_cons]
  refine (midframe_open hf hi hs t).rest hf rfl (by simpa using hlen) ?_
  rwa [rxByte_lastT]

/-- What is left in RXB by a frame on the wire: it is whole, and `crc_ok` compares its last byte with its CRC. -/
theorem rxBytes_wireFrame {c : Config} {p : List Byte} (hp : p.length + 4 ≤ c.cap) (type x : Byte) {s : State}
    (hi : Inv c s) (hs : s.st = .idle) {ts : List U16} (hlen : ts.length = p.length + 4) (htime : inTime c ts) :
    (rxBytes c ((wireFrame c type p x).zip ts) s).rxb.readRange 0 (p.length + 4) = wireFrame c type p x
    ∧ (rxBytes c ((wireFrame c type p x).zip ts) s).cnt.toNat = p.length + 4
    ∧ (rxBytes c ((wireFrame c type p x).zip ts) s).frameRx = true
    ∧ (rxBytes c ((wireFrame c type p x).zip ts) s).crcOk = (x == crc8 c (type :: p)) := by
  have hf := isFrame_wireFrame hp type x
  have hflen := length_wireFrame c type p x
  obtain ⟨hcnt, hrxb, hrx, hcrc⟩ := rxBytes_frame hf hi hs (hlen.trans hflen.symm) htime
  have hx : (wireFrame c type p x).getD (p.length + 3) 0 = x := by simp [wireFrame]
  have hcovered : ((wireFrame c type p x).drop 2).take (p.length + 1) = type :: p := by simp [wireFrame]
  rw [hflen] at hcnt hrxb hcrc
  rw [hcrc]
  exact ⟨hrxb, hcnt, hrx, by rw [← hcovered]; exact congrArg (· == _) hx⟩

/-- Settles O38: a run of RX_BYTE events is RX_BYTE byte by byte, and no byte is its own inverse. -/
theorem inboundFrameIsReceivedWhole : Obligations.InboundFrameIsReceivedWhole := by
  intro s type p ts hi hs hp hlen htime
  have hfit : p.length + 4 ≤ Config.chip.cap := by rw [chip_cap]; omega
  have hinverted : ∀ b : Byte, (b ^^^ 0xFF == b) = false := by decide
  constructor
  · obtain ⟨hrxb, hcnt, hrx, hcrc⟩ :=
      rxBytes_wireFrame hfit type (crc8 Config.chip (type :: p)) hi hs hlen htime
    exact ⟨_, runEvents_rxEvents _ s, hrxb, hcnt, hrx, hcrc.trans (beq_self_eq_true _)⟩
  · obtain ⟨hrxb, hcnt, hrx, hcrc⟩ :=
      rxBytes_wireFrame hfit type (crc8 Config.chip (type :: p) ^^^ 0xFF) hi hs hlen htime
    exact ⟨_, runEvents_rxEvents _ s, hrxb, hcnt, hrx, hcrc.trans (hinverted _)⟩

/-- A built frame is a frame on the wire of the receiving side, where both addresses are one. -/
theorem buildFrame_eq_wireFrame {c : Config} (haddr : c.addrOut = c.addrIn) {k : Kind} {p : List Byte}
    (hp : p.length = c.psize k) :
    buildFrame c k p = wireFrame c (c.typeByte k) p (crc8 c (c.typeByte k :: p)) := by
  rw [buildFrame, wireFrame, haddr, hp]

/-- Settles O39. -/
theorem builtFrameRoundTrip : Obligations.BuiltFrameRoundTrip := by
  intro c k p ts s haddr hp hi hs hlen htime
  have hfit : p.length + 4 ≤ c.cap := hp ▸ (psize_le c k).2
  obtain ⟨hrxb, hcnt, hrx, hcrc⟩ :=
    rxBytes_wireFrame hfit (c.typeByte k) (crc8 c (c.typeByte k :: p)) hi hs hlen htime
  rw [buildFrame_eq_wireFrame haddr hp]
  exact ⟨_, rfl, hrxb, hcnt, hrx, hcrc.trans (beq_self_eq_true _)⟩

end Sys2Proof.Machine

/-! ## CRC-8, channel packing and configurations (41_frame_codec.md, 00_scope.md section 3) -/

namespace Sys2Proof.Machine

/-! ### CRC-8 (R110, R113) -/

/-- Settles O51. -/
theorem crcCheckValues : Obligations.CrcCheckValues := by
  unfold Obligations.CrcCheckValues
  decide +kernel

theorem xor_xor_xor_comm (a b x y : Byte) : (a ^^^ b) ^^^ (x ^^^ y) = (a ^^^ x) ^^^ (b ^^^ y) := by ac_rfl

/-- One round adds the polynomial to the shifted register, or nothing. -/
theorem crcShift_eq (c : Config) (x : Byte) : crcShift c x = (x <<< 1) ^^^ bif x.msb then c.crcPoly else 0#8 := by
  unfold crcShift
  cases x.msb <;> simp

/-- One round is linear: two added polynomials cancel. -/
theorem crcShift_xor (c : Config) (x y : Byte) : crcShift c (x ^^^ y) = crcShift c x ^^^ crcShift c y := by
  simp only [crcShift_eq, BitVec.msb_xor, BitVec.shiftLeft_xor_distrib]
  rw [xor_xor_xor_comm]
  cases x.msb <;> cases y.msb <;> simp

theorem crcShifts_xor (c : Config) (n : Nat) (x y : Byte) :
    crcShifts c n (x ^^^ y) = crcShifts c n x ^^^ crcShifts c n y := by
  induction n generalizing x y with
  | zero => rfl
  | succ n ih => rw [crcShifts, crcShift_xor, ih]; rfl

/-- The register is linear in its start value and the string together (R113). -/
theorem crcFrom_xor (c : Config) {p q : List Byte} (h : p.length = q.length) (x y : Byte) :
    crcFrom c (x ^^^ y) (List.zipWith (· ^^^ ·) p q) = crcFrom c x p ^^^ crcFrom c y q := by
  induction p generalizing q x y with
  | nil =>
    obtain rfl := List.length_eq_zero_iff.1 h.symm
    rfl
  | cons a p ih =>
    obtain ⟨b, q, rfl⟩ := List.exists_cons_of_length_eq_add_one h.symm
    simp only [List.zipWith_cons_cons, crcFrom]
    rw [xor_xor_xor_comm, crcShifts_xor]
    exact ih (Nat.succ.inj h) _ _

/-- A linear map that sends only 0 to 0 is injective. -/
theorem injective_of_xor {f : Byte → Byte} (hadd : ∀ x y, f (x ^^^ y) = f x ^^^ f y) (hzero : ∀ x, f x = 0 → x = 0) :
    Function.Injective f := fun x y h => by
  have hxy : f (x ^^^ y) = 0 := by rw [hadd, h, BitVec.xor_self]; rfl
  exact BitVec.xor_eq_zero_iff.1 (hzero _ hxy)

/-- On the chip one round loses nothing: the polynomial's lowest bit is set. -/
theorem chip_crcShift_injective : Function.Injective (crcShift Config.chip) :=
  injective_of_xor (crcShift_xor _) (by decide)

theorem chip_crcShifts_injective (n : Nat) : Function.Injective (crcShifts Config.chip n) := by
  induction n with
  | zero => exact fun _ _ h => h
  | succ n ih => exact ih.comp chip_crcShift_injective

/-- Different running values stay different over any string. -/
theorem chip_crcFrom_injective (p : List Byte) : Function.Injective (crcFrom Config.chip · p) := by
  induction p with
  | nil => exact fun _ _ h => h
  | cons b p ih => exact fun x y h => BitVec.xor_left_inj b |>.1 (chip_crcShifts_injective 8 (ih h))

/-- Changing one byte of a string changes its CRC-8. -/
theorem chip_crc8_ne {a b : Byte} (h : a ≠ b) (p q : List Byte) :
    crc8 Config.chip (p ++ a :: q) ≠ crc8 Config.chip (p ++ b :: q) := by
  simp only [crc8, crcFrom_append]
  intro heq
  exact h (BitVec.xor_right_inj _ |>.1 (chip_crcShifts_injective 8 (chip_crcFrom_injective q heq)))

/-- A byte that meets its own value in the register leaves zero. -/
theorem crcShifts_zero (c : Config) (n : Nat) : crcShifts c n 0 = 0 := by
  have h := crcShifts_xor c n 0 0
  rwa [BitVec.xor_self, BitVec.xor_self] at h

/-- Settles O52. -/
theorem crcAlgebra : Obligations.CrcAlgebra := by
  refine ⟨fun p q h => crcFrom_xor Config.chip h 0 0, fun p q b j => chip_crc8_ne ?_ p q, fun p => ?_⟩
  · have hbit : ∀ j : Fin 8, 1#8 <<< j.val ≠ 0 := by decide
    intro h
    exact hbit j (by simpa using h)
  · rw [crc8, crcFrom_append]
    change crcShifts _ 8 (crc8 _ p ^^^ crc8 _ p) = 0
    rw [BitVec.xor_self]
    exact crcShifts_zero _ 8

/-! ### Packing channels (R121) -/

/-- The bytes of a number, least significant first, give back as much of it as they hold. -/
theorem littleEndian_bytes (v n : Nat) :
    littleEndian ((List.range n).map fun i => BitVec.ofNat 8 (v / 2 ^ (8 * i))) = v % 2 ^ (8 * n) := by
  induction n generalizing v with
  | zero => simp [littleEndian, Nat.mod_one]
  | succ n ih =>
    have hshift : ∀ i, v / 2 ^ (8 * (i + 1)) = v / 2 ^ 8 / 2 ^ (8 * i) := fun i => by
      rw [Nat.div_div_eq_div_mul, ← Nat.pow_add, Nat.mul_add, Nat.mul_one, Nat.add_comm]
    rw [List.range_succ_eq_map, List.map_cons, List.map_map, littleEndian]
    simp only [Function.comp_def, Nat.succ_eq_add_one, hshift, ih]
    rw [BitVec.toNat_ofNat, Nat.mul_zero, Nat.pow_zero, Nat.div_one, Nat.mul_add, Nat.mul_one, Nat.add_comm (8 * n),
      Nat.pow_add, Nat.mod_mul]

/-- `n` channels of `w` bits take `n * w` bits. -/
theorem packedInteger_lt (w : Nat) (ch : List Nat) : packedInteger w ch < 2 ^ (ch.length * w) := by
  induction ch with
  | nil => simp [packedInteger]
  | cons v ch ih =>
    have hv : v % 2 ^ w < 2 ^ w := Nat.mod_lt _ (Nat.two_pow_pos w)
    rw [packedInteger, List.length_cons, Nat.succ_mul, Nat.add_comm (ch.length * w), Nat.pow_add]
    calc v % 2 ^ w + 2 ^ w * packedInteger w ch
        < 2 ^ w * (packedInteger w ch + 1) := by rw [Nat.mul_add, Nat.mul_one]; omega
      _ ≤ 2 ^ w * 2 ^ (ch.length * w) := Nat.mul_le_mul_left _ ih

/-- Channel `k` stands at bit `w * k` of the packed integer. -/
theorem packedInteger_channel (w : Nat) {ch : List Nat} {k : Nat} (h : k < ch.length) :
    packedInteger w ch / 2 ^ (w * k) % 2 ^ w = ch[k] % 2 ^ w := by
  induction ch generalizing k with
  | nil => simp at h
  | cons v ch ih =>
    have hv : v % 2 ^ w < 2 ^ w := Nat.mod_lt _ (Nat.two_pow_pos w)
    rw [packedInteger]
    cases k with
    | zero => simp
    | succ k =>
      rw [Nat.mul_add, Nat.mul_one, Nat.add_comm (w * k), Nat.pow_add, ← Nat.div_div_eq_div_mul,
        Nat.add_mul_div_left _ _ (Nat.two_pow_pos w), Nat.div_eq_of_lt hv, Nat.zero_add]
      exact ih (by simpa using h)

/-- Settles O56: the payload's bytes hold the whole packed integer. -/
theorem unpackPackedChannels : Obligations.UnpackPackedChannels := by
  intro c ch hlen hbytes hch k h
  have hsize : 8 * c.chBytes = ch.length * c.chBits := by
    rw [c.ok.2.2.2.2.1, hlen]
    omega
  rw [unpackChannel, packChannels, littleEndian_bytes, hsize, Nat.mod_eq_of_lt (packedInteger_lt c.chBits ch),
    packedInteger_channel c.chBits h, Nat.mod_eq_of_lt (hch _ (List.getElem_mem h))]

/-! ### Link statistics in the queue (R61, R131) -/

/-- Settles O47: the payload stands in the queued frame from offset 3. -/
theorem combinedFieldsStandAtTheirOffsets : Obligations.CombinedFieldsStandAtTheirOffsets := by
  intro v s hq
  have hrun : enqEvent Config.chip .ls (marshalCombined v) s = enqueued Config.chip .ls (marshalCombined v) s := by
    rw [enqEvent_ok rfl, enqueue_empty hq]
    rfl
  refine ⟨_, (exec_enqLs _ s).trans (congrArg _ hrun), ?_⟩
  have hread : ∀ a < 14, (enqueued Config.chip .ls (marshalCombined v) s).txb.read a
      = (buildFrame Config.chip .ls (marshalCombined v)).getD a 0 := fun a ha =>
    (Memory.read_writeRange_zero s.txb _ a).trans (if_pos ha)
  simp only [hread, Nat.reduceLT]
  exact ⟨rfl, rfl, rfl, rfl, rfl, rfl, rfl, rfl, rfl, rfl⟩

/-! ### Configurations (R8, R9) -/

theorem accept_eq_some_iff {p : Params} {c : Config} : p.accept = some c ↔ c.toParams = p := by
  unfold Params.accept
  constructor
  · intro h
    split at h
    · exact (Option.some.inj h) ▸ rfl
    · cases h
  · rintro rfl
    exact dif_pos c.ok

/-- Settles O59. -/
theorem configurationAdmittedExactly : Obligations.ConfigurationAdmittedExactly := by
  refine ⟨fun p => ⟨?_, fun c => accept_eq_some_iff.1⟩, rfl, rfl, rfl, rfl, rfl, rfl, rfl, rfl, rfl, rfl, rfl, rfl, rfl⟩
  simp only [accept_eq_some_iff]
  constructor
  · rintro ⟨c, rfl⟩
    obtain ⟨⟨hlo, hhi⟩, -, -, -, hbytes, hregion, htmo, hts⟩ := c.ok
    exact ⟨hlo, hhi, htmo, hts, psize_le c, hbytes, hregion⟩
  · rintro ⟨hlo, hhi, htmo, hts, hsize, hbytes, hregion⟩
    exact ⟨⟨p, ⟨hlo, hhi⟩, hsize .ls, hsize .up, hsize .dn, hbytes, hregion, htmo, hts⟩, rfl⟩

end Sys2Proof.Machine
